-- ==== Sys2Proof/Word.lean ====
section
/-! DEFINITION. The fixed-width words that frames are made of (spec 01, section 1.2). -/

namespace Sys2Proof

/-- One byte of a frame. -/
abbrev Byte := BitVec 8

/-- A two-byte field of a frame, big-endian on the wire (spec 00, Conventions). -/
abbrev Half := BitVec 16

/-- An Ethernet address. -/
abbrev Mac := BitVec 48

end Sys2Proof
end

