-- ==== Sys2Proof/Config.lean ====
section
/-! DEFINITION. The sizes the manual fixes for the part's tables and queues, and the two free values. -/

namespace Sys2Proof.Config

/-- The Ethernet type of a line frame, 9C5EH (R1). -/
def lineType : Half := 0x9C5E
/-- The format byte the part recognises, 03H (R1). -/
def lineFormat : Byte := 3
/-- The largest body length of a well-formed envelope (R1). -/
def maxBody : Nat := 1188
/-- The Ethernet minimum, from the destination address through the CRC (R1). -/
def minFrame : Nat := 64
/-- Bytes of an Ethernet frame outside its payload: two addresses, the type and the CRC. -/
def frameOverhead : Nat := 18
/-- The Ethernet broadcast address (R4). -/
def broadcast : Mac := 0xFFFFFFFFFFFF
/-- Destination station "all" (Table 1-1). -/
def allStations : Nat := 4095
/-- "None" in a two-byte minute field (spec 00, Conventions). -/
def noMinute : Nat := 0xFFFF

/-- Places in a transit queue (R18). -/
def transitPlaces : Nat := 64
/-- Places in an origin queue (R18). -/
def originPlaces : Nat := 16
/-- Places in the report queue (R191). -/
def reportPlaces : Nat := 32
/-- Reports move while the park origin queue holds fewer frames than this (R192). -/
def reportMark : Nat := 8
/-- Station records (section 1.4). -/
def stationPlaces : Nat := 512
/-- Ride records (section 3.1). -/
def rideCount : Nat := 48
/-- Classes (section 4.1). -/
def classCount : Nat := 16
/-- Windows of a ring (section 5.1). -/
def ringLength : Nat := 24
/-- Pass-table entries (section 6.2). -/
def passPlaces : Nat := 8192
/-- Slots of the hold list (section 7.1). -/
def holdPlaces : Nat := 64
/-- Ids the expired-id list keeps (R124). -/
def expiredPlaces : Nat := 16
/-- Places a token may have in all (R109). -/
def tokenPlaces : Nat := 6
/-- Board records (section 9.1). -/
def boardPlaces : Nat := 64
/-- Symbol sets (R161). -/
def symbolSets : Nat := 8
/-- Slots of a board record (section 9.1). -/
def boardSlots : Nat := 16
/-- Entries one PURGE scans (R181). -/
def purgeBatch : Nat := 1024
/-- Passes one QUERY_PASSES returns (R186). -/
def queryPassBatch : Nat := 24
/-- Records one QUERY_STATIONS returns (R187). -/
def queryStationBatch : Nat := 32

/-- The elapsed count holds here (R23). -/
def maxElapsed : Nat := 4294967295
/-- Park time holds here (R24). -/
def maxDaySecond : Nat := 129599
/-- Occupancies hold here (R58, R146). -/
def maxOccupancy : Nat := 9999
/-- Sixteen-bit counts hold here (R46, R69, R194). -/
def maxCount : Nat := 65535
/-- The part code IDENTIFY answers (R176). -/
def partCode : Nat := 0x0416

/-- The bytes that carry the data values of a MGMTANS, by command code.
UNSTATED (log 1): the manual gives the values of each answer in order (R102, R121, R175 to R187) and no byte
sizes for them, READ_COUNTERS' seventeen values apart (R195); empty data has no bytes (R175). Nothing in the state depends on these bytes. -/
opaque answerDataBytes (command : Nat) (values : List Nat) : List Byte

/-- The byte at a place of the padding that brings an originated frame up to the Ethernet minimum.
UNSTATED (log 1): R4 says that padding goes no further than the minimum, not what it holds. -/
opaque paddingByte (place : Nat) : Byte

end Sys2Proof.Config
end

