-- ==== Sys2Proof/Syntax.lean ====
section
/-! DEFINITION. The commands: one constructor for each row of spec/opcode_table.json. A frame command carries the
frame's own fields, so that every frame that can arrive, a damaged one too, is a term (log 4). -/

namespace Sys2Proof

/-- The two Ethernet ports (spec 00, Place in the park network). -/
inductive Port where
  | field
  | park
deriving DecidableEq, Repr

/-- Why a port unit discards a received frame (R1). -/
inductive DiscardReason where
  | badCrc
  | tooShort
deriving DecidableEq, Repr

/-- An Ethernet frame without its CRC. `payload` is everything after the type, padding included. -/
structure Frame where
  ethDst : Mac
  ethSrc : Mac
  ethType : Half
  payload : List Byte
deriving DecidableEq, Repr

/-- An arriving line frame of format 03H, without the kind byte, which the row fixes.
`rest` is the payload after the eight envelope bytes: the body, then padding (Table 1-1). -/
structure LineRx where
  port : Port
  ethDst : Mac
  ethSrc : Mac
  source : Half
  dest : Half
  bodyLen : Half
  rest : List Byte
deriving DecidableEq, Repr

/-- An arriving MGMT frame, without the kind byte and the command code, which the row fixes.
`tail` is the payload after the command code: command tag, parameters, padding (Table 1-2). -/
structure MgmtRx where
  port : Port
  ethDst : Mac
  ethSrc : Mac
  source : Half
  dest : Half
  bodyLen : Half
  tail : List Byte
deriving DecidableEq, Repr

/-- The rows of the table, in the table's order. -/
inductive Instr where
  | frameDiscard (port : Port) (why : DiscardReason)
  | otherTraffic (port : Port) (f : Frame)
  | foreignFrame (port : Port) (f : Frame)
  | forward (port : Port) (f : Frame)
  | count (rx : LineRx)
  | dispatch (rx : LineRx)
  | rideState (rx : LineRx)
  | released (rx : LineRx)
  | passReq (rx : LineRx)
  | take (rx : LineRx)
  | drop (rx : LineRx)
  | cancel (rx : LineRx)
  | redeem (rx : LineRx)
  | board (rx : LineRx)
  | time (rx : LineRx)
  | wrongPortMgmt (rx : LineRx)
  | unknownCommand (code : Byte) (rx : MgmtRx)
  | identify (rx : MgmtRx)
  | loadPark (rx : MgmtRx)
  | loadClass (rx : MgmtRx)
  | loadStation (rx : MgmtRx)
  | removeStation (rx : MgmtRx)
  | loadRide (rx : MgmtRx)
  | unloadRide (rx : MgmtRx)
  | loadBoard (rx : MgmtRx)
  | loadSymbols (rx : MgmtRx)
  | makeReady (rx : MgmtRx)
  | dayBegin (rx : MgmtRx)
  | dayEnd (rx : MgmtRx)
  | purge (rx : MgmtRx)
  | openRide (rx : MgmtRx)
  | closeRide (rx : MgmtRx)
  | setQueue (rx : MgmtRx)
  | setMask (rx : MgmtRx)
  | issueCourtesy (rx : MgmtRx)
  | cancelPass (rx : MgmtRx)
  | queryRide (rx : MgmtRx)
  | queryWindows (rx : MgmtRx)
  | queryToken (rx : MgmtRx)
  | queryPasses (rx : MgmtRx)
  | queryStations (rx : MgmtRx)
  | readCounters (rx : MgmtRx)
  | secondTick
  | clockFree
  | clockAdrift
  | silenceExpiry (station : Nat)
  | holdExpiry (slot : Nat)
  | releaseTimeout (ride : Nat)
  | boardRefresh (board : Nat)
  | linkDown (port : Port)
  | linkUp (port : Port)
  | transmitStart (port : Port)
  | transmitDone (port : Port)
  | reset (straps : BitVec 12)
  | resetAsserted
deriving DecidableEq, Repr

end Sys2Proof
end

