-- ==== Sys2Proof/Decode.lean ====
section
/-! DEFINITION. The command that a table word spells. No row of spec/opcode_table.json gives bits
(98_reader.md: rows with "fixed" 0, rows with "fields" 0), so no word spells one. -/

namespace Sys2Proof

/-- The command whose table bits are `w`: none, since no row has bits. -/
def decodeTableWord (_nbits _w : Nat) : Option Instr := none

end Sys2Proof
end

