-- ==== Sys2Proof/Machine/State.lean ====
section
/-! DEFINITION. The state of the part, block by block, and the state right after reset. -/

namespace Sys2Proof.Machine

/-! ## Names -/

/-- The queue a transmit arbiter's turn names, or a frame left (section 1.6). -/
inductive QueueName where
  | transit
  | origin
deriving DecidableEq, Repr

/-- Table 10-1. -/
inductive DeviceState where
  | unconfigured
  | ready
  | day
  | closing
deriving DecidableEq, Repr

/-- Table 2-2. -/
inductive ClockState where
  | unset
  | synced
  | free
  | adrift
deriving DecidableEq, Repr

/-- Table 3-2. `opened` is OPEN. -/
inductive RideState where
  | closed
  | opened
  | held
  | down
deriving DecidableEq, Repr

/-- Table 1-4, station roles. -/
inductive Role where
  | entryCounter
  | boardCounter
  | rideControl
  | mergeGate
  | kiosk
  | returnScanner
  | board
deriving DecidableEq, Repr

/-- Table 1-7. -/
inductive Supervision where
  | unheard
  | live
  | silent
deriving DecidableEq, Repr

/-- Table 6-1. -/
inductive PassState where
  | issued
  | anytime
deriving DecidableEq, Repr

/-- Table 1-4, REFUSE reasons. -/
inductive RefuseReason where
  | dayClosed
  | badToken
  | badParty
  | unknownRide
  | rideClosed
  | rideDown
  | rideHeld
  | noControl
  | noPasses
  | clock
  | holdsPass
  | limit
  | bookFull
  | busyRetry
  | noWindow
  | unknownHold
  | notOwner
  | expired
  | cancelLate
  | noPass
  | early
  | late
deriving DecidableEq, Repr

/-- Table 1-4, REPORT kinds. -/
inductive ReportKind where
  | clockState
  | clockJump
  | stationSilent
  | stationLive
  | rideState
  | dayState
  | outageMerged
  | counterRestart
  | queueClamp
  | releaseTimeout
  | releaseLate
  | bookFull
  | holdsFull
deriving DecidableEq, Repr

/-- Table 1-4, PASSLOG events. -/
inductive PassEvent where
  | grant
  | courtesy
  | admission
  | cancel
  | expire
  | disrupted
deriving DecidableEq, Repr

/-- Table 1-4, MGMTANS reasons. -/
inductive MgmtReason where
  | wrongState
  | range
  | notFound
  | full
  | incomplete
  | unknownCommand
deriving DecidableEq, Repr

/-- The four results of a MGMTANS (R175). `inPart` is PARTIAL. -/
inductive MgmtResult where
  | done
  | clamped
  | inPart
  | refused (reason : MgmtReason)
deriving DecidableEq, Repr

/-- Table 11-2, in its order. -/
inductive Counter where
  | transitDropField
  | transitDropPark
  | originDropField
  | originDropPark
  | foreign
  | unknownStation
  | roleMismatch
  | malformed
  | wrongPortMgmt
  | counterRestarts
  | dispatchMerged
  | offers
  | grants
  | refusals
  | admits
  | expiries
  | reportLost
deriving DecidableEq, Repr

/-! ## Records of the blocks -/

/-- A station record but its number, which is the table's key (section 1.4). -/
structure Station where
  role : Role
  binding : Option Nat
  window : Nat
  supervision : Supervision
  deadline : Option Nat
  baseline : Option Nat
deriving DecidableEq, Repr

/-- The park clock (chapter 2). -/
structure Clock where
  elapsed : Nat
  parkTime : Option Nat
  state : ClockState
  syncMark : Option Nat
  pendingJump : Option (Nat × Nat)
  highMark : Option Nat
deriving DecidableEq, Repr

/-- The configuration fields of Table 3-1. -/
structure RideCfg where
  classNo : Nat
  windowLength : Nat
  passShare : Nat
  minLead : Nat
  earlyGrace : Nat
  lateGrace : Nat
  displayStep : Nat
  queueBase : Nat
  threshold : Nat
  batch : Nat
  spacing : Nat
  burst : Nat
  interval : Nat
deriving DecidableEq, Repr

/-- An outage in day seconds; `stop` is absent while it is open (section 3.3). -/
structure Outage where
  start : Nat
  stop : Option Nat
deriving DecidableEq, Repr

/-- Table 3-4; each total wraps at 2^32 (R60). -/
structure DayTotals where
  entries : BitVec 32
  boardings : BitVec 32
  admissions : BitVec 32
  granted : BitVec 32
  seats : BitVec 32
deriving DecidableEq, Repr

/-- The estimator's record of a ride (section 4.2). `mark` is the dispatch mark. -/
structure Estimate where
  throughput : Nat
  mark : Option Nat
  carry : Nat
  standbyRate : Nat
  rawWait : Nat
  posted : Nat
  stale : Bool
  firstPosting : Bool
deriving DecidableEq, Repr

/-- A window record with its mark of the room map (sections 5.1 and 5.2, R88). -/
structure Window where
  start : Nat
  capacity : Nat
  issued : Nat
  held : Nat
  mark : Bool
deriving DecidableEq, Repr

/-- An outstanding merge release (chapter 8). -/
structure Release where
  batch : Nat
  deadline : Nat
deriving DecidableEq, Repr

/-- The return lane's record of a ride (chapter 8). `occupancy` is R. -/
structure Lane where
  occupancy : Nat
  mergeCounter : Nat
  outstanding : Option Release
  gateSilence : Bool
deriving DecidableEq, Repr

/-- All that the blocks keep for one ride index. `cfg` is absent while the ride is unconfigured; `ring` is empty
while the ride has no ring; `recent` is the recent-offer list, oldest first. -/
structure Ride where
  cfg : Option RideCfg
  state : RideState
  noControl : Bool
  outages : List Outage
  q : Nat
  totals : DayTotals
  ignored : Nat
  est : Estimate
  ring : List Window
  recent : List Nat
  lane : Lane
deriving DecidableEq, Repr

/-- A pass record but its index, which is the table's key (section 6.2). -/
structure Pass where
  token : List Byte
  ride : Nat
  start : Option Nat
  length : Nat
  party : Nat
  admitted : Nat
  state : PassState
deriving DecidableEq, Repr

/-- A token record (section 6.3): pass list in grant order, and hold count. -/
structure TokenRec where
  token : List Byte
  passes : List Nat
  holds : Nat
deriving DecidableEq, Repr

/-- A hold record but its slot, which is the list's key (section 7.1). -/
structure Hold where
  id : Nat
  token : List Byte
  ride : Nat
  start : Nat
  party : Nat
  kiosk : Nat
  tag : Nat
  deadline : Nat
deriving DecidableEq, Repr

/-- A slot of a board record: a ride, or untouched (section 9.1). -/
structure SlotSpec where
  ride : Option Nat
  showNext : Bool
deriving DecidableEq, Repr

/-- A board record but its index, which is the table's key (section 9.1). -/
structure BoardRec where
  station : Nat
  symbolSet : Nat
  interval : Nat
  deadline : Nat
  slots : List SlotSpec
deriving DecidableEq, Repr

/-- The park settings (section 10.3). -/
structure Settings where
  tokenLimit : Nat
  pad : Byte
  holdTime : Nat
deriving DecidableEq, Repr

/-- A report as made (R189). `parkSecond` is absent while park time is. -/
structure Report where
  kind : ReportKind
  subject : Nat
  detail : Nat
  parkSecond : Option Nat
deriving DecidableEq, Repr

/-- The seventeen event counters (Table 11-2). -/
structure Counters where
  transitDropField : Nat
  transitDropPark : Nat
  originDropField : Nat
  originDropPark : Nat
  foreign : Nat
  unknownStation : Nat
  roleMismatch : Nat
  malformed : Nat
  wrongPortMgmt : Nat
  counterRestarts : Nat
  dispatchMerged : Nat
  offers : Nat
  grants : Nat
  refusals : Nat
  admits : Nat
  expiries : Nat
  reportLost : Nat
deriving DecidableEq, Repr

/-! ## Frames the part originates -/

/-- The data of an IDENTIFY answer (R176). -/
structure IdentifyData where
  ownStation : Nat
  device : DeviceState
  clock : ClockState
  daySecond : Option Nat
  elapsed : Nat
  stations : Nat
  rides : Nat
  boards : Nat
  livePasses : Nat
  holds : Nat
  purgeCursor : Option Nat
deriving DecidableEq, Repr

/-- One pass of a QUERY_TOKEN or QUERY_PASSES answer (R121). -/
structure PassEntry where
  index : Nat
  ride : Nat
  start : Option Nat
  length : Nat
  party : Nat
  admitted : Nat
  state : PassState
  disrupted : Bool
deriving DecidableEq, Repr

/-- One record of a QUERY_STATIONS answer (R187). -/
structure StationEntry where
  number : Nat
  role : Role
  binding : Option Nat
  window : Nat
  supervision : Supervision
  remaining : Nat
  baseline : Option Nat
deriving DecidableEq, Repr

/-- The data of a QUERY_RIDE answer (R185, with R83, R101, R131, R158). -/
structure RideData where
  cfg : RideCfg
  state : RideState
  noControl : Bool
  outages : List Outage
  q : Nat
  totals : DayTotals
  ignored : Nat
  throughput : Nat
  standbyRate : Nat
  rawWait : Nat
  posted : Nat
  stale : Bool
  mark : Option Nat
  carry : Nat
  nextReturn : Nat
  holds : Nat
  recentOffers : Nat
  livePasses : Nat
  occupancy : Nat
  mergeCounter : Nat
  releaseBatch : Nat
  releaseSeconds : Nat
deriving DecidableEq, Repr

/-- The data of a MGMTANS, as its command's rule gives it. -/
inductive AnswerData where
  | empty
  | identity (d : IdentifyData)
  | parkSettings (d : Settings)
  | classRate (rate : Nat)
  | mask (level : Nat)
  | ringsBuilt (count : Nat)
  | dayEnded (ridesClosed livePasses : Nat)
  | purged (cursor freed remaining : Nat)
  | courtesyIndex (index : Nat)
  | passBookReason (reason : RefuseReason) (extra : Nat)
  | cancelled (ride start party admitted returned : Nat)
  | ride (d : RideData)
  | windows (length : Nat) (ring : List Window)
  | token (holds : Nat) (passes : List PassEntry)
  | passes (ride freeEntries : Nat) (records : List (PassEntry × List Byte)) (next : Option Nat)
  | stations (total : Nat) (records : List StationEntry) (next : Option Nat)
  | counters (c : Counters) (freeEntries : Nat)
deriving DecidableEq, Repr

/-- What a command reports: result, positions of adjusted fields, data (R175). -/
structure Reply where
  result : MgmtResult
  adjusted : List Nat
  data : AnswerData
deriving DecidableEq, Repr

/-- One slot of a BOARD frame (Table 1-3). -/
structure BoardSlot where
  status : Byte
  wait : Nat
  pass : Byte
  next : Nat
deriving DecidableEq, Repr

/-- The bodies of the frames the part originates (Table 1-2). -/
inductive Body where
  | offer (tag holdId ride start length seconds : Nat)
  | grant (tag pass ride start length party : Nat)
  | refuse (tag kind : Nat) (reason : RefuseReason) (extra : Nat)
  | admission (tag admitted remaining : Nat)
  | release (batch : Nat)
  | board (slots : List BoardSlot)
  | mgmtAnswer (code tag : Nat) (reply : Reply)
  | report (r : Report)
  | passLog (event : PassEvent) (pass ride count start : Nat) (parkSecond : Option Nat) (token : List Byte)
deriving DecidableEq, Repr

/-- A frame the part originates (R4). -/
structure OriginFrame where
  ethDst : Mac
  source : Nat
  dest : Nat
  body : Body
deriving DecidableEq, Repr

/-- A frame in a transmitter, by the queue it left. -/
inductive Sending where
  | transit (f : Frame)
  | origin (f : OriginFrame)
deriving DecidableEq, Repr

/-- A port unit (section 1.6). -/
structure PortUnit where
  transit : List Frame
  origin : List OriginFrame
  sending : Option Sending
  turn : QueueName
  linkUp : Bool
deriving DecidableEq, Repr

/-! ## The state -/

/-- The state of the part, and the commands that wait (`pending`, first in first out). -/
structure State where
  pending : List Instr
  resetHeld : Bool
  straps : BitVec 12
  device : DeviceState
  purgeCursor : Option Nat
  settings : Settings
  reportMask : Nat
  reportQueue : List Report
  counters : Counters
  field : PortUnit
  park : PortUnit
  clock : Clock
  stations : List (Nat × Station)
  classes : List Nat
  rides : List Ride
  passes : List (Nat × Pass)
  tokens : List (Nat × TokenRec)
  holds : List (Nat × Hold)
  nextId : Nat
  expiredIds : List Nat
  boards : List (Nat × BoardRec)
  symbols : List (List Byte)
deriving DecidableEq, Repr

/-- No rule of the manual stops the part: there is no fault. -/
inductive Fault where
deriving DecidableEq, Repr

/-- Why a command has no outcome. -/
inductive Refusal where
  /-- Raised by `exec` alone, for a command that has no meaning yet. Safe. No arm of this model raises it. -/
  | notModelled (mnemonic : String)
deriving DecidableEq, Repr

/-! ## Reset -/

/-- Section 1.6: queues empty, transmitter idle, turn TRANSIT. The link is an input (log 6: UP). -/
def PortUnit.reset : PortUnit :=
  { transit := [], origin := [], sending := none, turn := .transit, linkUp := true }

/-- R36. -/
def Clock.reset : Clock :=
  { elapsed := 0, parkTime := none, state := .unset, syncMark := none, pendingJump := none, highMark := none }

/-- R60, R62. -/
def DayTotals.zero : DayTotals := { entries := 0, boardings := 0, admissions := 0, granted := 0, seats := 0 }

/-- R66. -/
def Estimate.reset : Estimate :=
  { throughput := 0, mark := none, carry := 0, standbyRate := 1, rawWait := 0, posted := 0, stale := false,
    firstPosting := false }

/-- The return lane of a ride index after reset (chapter 8). -/
def Lane.reset : Lane := { occupancy := 0, mergeCounter := 0, outstanding := none, gateSilence := false }

/-- A ride index after reset (R62, R66, R85, R131, chapter 8). -/
def Ride.reset : Ride :=
  { cfg := none, state := .closed, noControl := false, outages := [], q := 0, totals := DayTotals.zero, ignored := 0,
    est := Estimate.reset, ring := [], recent := [], lane := Lane.reset }

/-- R194: every counter 0. -/
def Counters.zero : Counters :=
  { transitDropField := 0, transitDropPark := 0, originDropField := 0, originDropPark := 0, foreign := 0,
    unknownStation := 0, roleMismatch := 0, malformed := 0, wrongPortMgmt := 0, counterRestarts := 0,
    dispatchMerged := 0, offers := 0, grants := 0, refusals := 0, admits := 0, expiries := 0, reportLost := 0 }

/-- R177. -/
def Settings.reset : Settings := { tokenLimit := 2, pad := 0x20, holdTime := 20 }

/-- The part right after the release of the RESET pin (R22, R36, R62, R63, R66, R122, R140, R161, R172, R188, R196).
DESIGN CHOICE, inputs of the part: straps 0 (log 5), both links UP (log 6). -/
def State.reset : State :=
  { pending := [], resetHeld := false, straps := 0, device := .unconfigured, purgeCursor := none,
    settings := Settings.reset, reportMask := 8, reportQueue := [], counters := Counters.zero,
    field := PortUnit.reset, park := PortUnit.reset, clock := Clock.reset, stations := [],
    classes := List.replicate Config.classCount 0, rides := List.replicate Config.rideCount Ride.reset,
    passes := [], tokens := [], holds := [], nextId := 1, expiredIds := [], boards := [],
    symbols := List.replicate Config.symbolSets (List.replicate 8 0) }

end Sys2Proof.Machine
end

