-- ==== Sys2Proof/Machine/Operands.lean ====
section
/-! DEFINITION. How a command's operands are read from a frame's bytes: byte order, envelope, body fields, tokens
(sections 1.1, 1.2 and 6.1). -/

namespace Sys2Proof.Machine

/-! ## Bytes -/

/-- The byte at an offset; offsets beyond the end read 0, and every reader checks lengths first. -/
def u8At (bytes : List Byte) (at_ : Nat) : Nat := (bytes.getD at_ 0).toNat

/-- A two-byte field, most significant byte first (spec 00, Conventions). -/
def u16At (bytes : List Byte) (at_ : Nat) : Nat := u8At bytes at_ * 256 + u8At bytes (at_ + 1)

/-- A four-byte field, most significant byte first. -/
def u32At (bytes : List Byte) (at_ : Nat) : Nat := u16At bytes at_ * 65536 + u16At bytes (at_ + 2)

/-- A field of two bytes as sent. -/
def joinHalf (high low : Byte) : Half := (high ++ low : BitVec 16)

/-- The two bytes of a field in the order sent. -/
def halfBytes (h : Half) : List Byte := [h.extractLsb' 8 8, h.extractLsb' 0 8]

/-! ## Frames and envelopes -/

/-- The Ethernet frame a line-frame arrival stands for, for a kind byte (Table 1-1). -/
def lineFrame (kind : Byte) (rx : LineRx) : Frame :=
  { ethDst := rx.ethDst, ethSrc := rx.ethSrc, ethType := Config.lineType,
    payload := Config.lineFormat :: kind ::
      (halfBytes rx.source ++ halfBytes rx.dest ++ halfBytes rx.bodyLen ++ rx.rest) }

/-- Kind byte and fields of a line frame of format 03H that arrives at a port (Table 1-1). -/
def readLine (port : Port) (f : Frame) : Option (Byte × LineRx) :=
  match f.payload with
  | fmt :: kind :: s1 :: s0 :: d1 :: d0 :: n1 :: n0 :: rest =>
    if f.ethType = Config.lineType ∧ fmt = Config.lineFormat then
      some (kind, { port := port, ethDst := f.ethDst, ethSrc := f.ethSrc, source := joinHalf s1 s0,
                    dest := joinHalf d1 d0, bodyLen := joinHalf n1 n0, rest := rest })
    else none
  | _ => none

/-- A MGMT arrival as a line-frame arrival: the command code is the first body byte (Table 1-2). -/
def mgmtLine (code : Byte) (rx : MgmtRx) : LineRx :=
  { port := rx.port, ethDst := rx.ethDst, ethSrc := rx.ethSrc, source := rx.source, dest := rx.dest,
    bodyLen := rx.bodyLen, rest := code :: rx.tail }

/-- The command code and the MGMT arrival a line-frame arrival holds; absent when no byte follows the envelope. -/
def readMgmt (rx : LineRx) : Option (Byte × MgmtRx) :=
  match rx.rest with
  | code :: tail => some (code, { port := rx.port, ethDst := rx.ethDst, ethSrc := rx.ethSrc, source := rx.source,
                                  dest := rx.dest, bodyLen := rx.bodyLen, tail := tail })
  | [] => none

/-- Payload length of a line-frame arrival. -/
def linePayloadLength (rx : LineRx) : Nat := 8 + rx.rest.length

/-- A well-formed envelope (R1). -/
def envelopeOk (rx : LineRx) : Bool :=
  decide (rx.bodyLen.toNat ≤ Config.maxBody ∧ rx.bodyLen.toNat ≤ rx.rest.length)

/-- The body; bytes after it are padding (R1). -/
def bodyOf (rx : LineRx) : List Byte := rx.rest.take rx.bodyLen.toNat

/-- Source station number. -/
def sourceOf (rx : LineRx) : Nat := rx.source.toNat

/-- Destination station number. -/
def destOf (rx : LineRx) : Nat := rx.dest.toNat

/-! ## Body checks (R3, with the body lengths of Table 1-2) -/

/-- COUNT: cumulative count (2). -/
def countBodyOk (body : List Byte) : Bool := body.length == 2

/-- DISPATCH: seats offered (1), seats filled (1). -/
def dispatchBodyOk (body : List Byte) : Bool := body.length == 2

/-- RIDESTATE: state code (1), which must be 1, 2 or 3. -/
def rideStateBodyOk (body : List Byte) : Bool :=
  body.length == 1 && decide (1 ≤ u8At body 0 ∧ u8At body 0 ≤ 3)

/-- RELEASED: guests admitted (1). -/
def releasedBodyOk (body : List Byte) : Bool := body.length == 1

/-- A body that ends in a token-length field, at `lengthAt`, and that many token bytes. -/
def tokenBodyOk (lengthAt : Nat) (body : List Byte) : Bool :=
  decide (lengthAt < body.length) && body.length == lengthAt + 1 + u8At body lengthAt

/-- PASSREQ: 7 + n. -/
def passReqBodyOk (body : List Byte) : Bool := tokenBodyOk 6 body

/-- TAKE: 5 + n. -/
def takeBodyOk (body : List Byte) : Bool := tokenBodyOk 4 body

/-- DROP: request tag (2), hold id (2). -/
def dropBodyOk (body : List Byte) : Bool := body.length == 4

/-- CANCEL: 4 + n. -/
def cancelBodyOk (body : List Byte) : Bool := tokenBodyOk 3 body

/-- REDEEM: 4 + n. -/
def redeemBodyOk (body : List Byte) : Bool := tokenBodyOk 3 body

/-- TIME: day second (4), 129599 or less. -/
def timeBodyOk (body : List Byte) : Bool :=
  body.length == 4 && decide (u32At body 0 ≤ Config.maxDaySecond)

/-- The token bytes after a token-length field. -/
def tokenAt (lengthAt : Nat) (bytes : List Byte) : List Byte :=
  (bytes.drop (lengthAt + 1)).take (u8At bytes lengthAt)

/-! ## Tokens (R103) -/

/-- A token extended on the right with the pad byte to 16 bytes. -/
def normalizeToken (pad : Byte) (token : List Byte) : List Byte :=
  token ++ List.replicate (16 - token.length) pad

/-- A bad token: length below 4 or above 16, or every byte the pad byte. -/
def badToken (pad : Byte) (token : List Byte) : Bool :=
  decide (token.length < 4 ∨ 16 < token.length) || token.all (· == pad)

/-- A normalized token read as one number: the token table's key. -/
def tokenKey (token : List Byte) : Nat := token.foldl (fun n b => n * 256 + b.toNat) 0

/-! ## Codes a frame or a command carries -/

/-- Table 1-4, station role codes; other codes name no role. -/
def roleOfCode (code : Nat) : Option Role :=
  if code = 1 then some .entryCounter
  else if code = 2 then some .boardCounter
  else if code = 3 then some .rideControl
  else if code = 4 then some .mergeGate
  else if code = 5 then some .kiosk
  else if code = 6 then some .returnScanner
  else if code = 7 then some .board
  else none

end Sys2Proof.Machine
end

