-- ==== Sys2Proof/Machine/Ops.lean ====
section
/-! DEFINITION. The shared operations: tables by key, ride records, counters, queues, reports, answers. -/

namespace Sys2Proof.Machine

/-! ## Tables: lists of key and record with strictly rising keys -/

/-- The record at a key. -/
def tblGet {α : Type} (t : List (Nat × α)) (key : Nat) : Option α :=
  match t with
  | [] => none
  | (k, v) :: rest => if k = key then some v else tblGet rest key

/-- The table with a record at a key, in key order. -/
def tblSet {α : Type} (t : List (Nat × α)) (key : Nat) (new : α) : List (Nat × α) :=
  match t with
  | [] => [(key, new)]
  | (k, v) :: rest =>
    if key < k then (key, new) :: (k, v) :: rest
    else if key = k then (key, new) :: rest
    else (k, v) :: tblSet rest key new

/-- The table without a key. -/
def tblErase {α : Type} (t : List (Nat × α)) (key : Nat) : List (Nat × α) := t.filter (fun e => e.1 != key)

/-- The canonical form: keys strictly rising. -/
abbrev tblWf {α : Type} (t : List (Nat × α)) : Prop := t.Pairwise (fun a b => a.1 < b.1)

/-- The lowest key at or above `from_` that a table with rising keys, all at or above `from_`, does not hold. -/
def tblFree {α : Type} (t : List (Nat × α)) (from_ : Nat) : Nat :=
  match t with
  | [] => from_
  | (k, _) :: rest => if k = from_ then tblFree rest (from_ + 1) else from_

/-! ## Ride records and classes -/

/-- The record of a ride index; indices above 47 have none and read as after reset. -/
def rideAt (i : Nat) (s : State) : Ride := s.rides.getD i Ride.reset

/-- Replace the record of a ride index. -/
def setRide (i : Nat) (r : Ride) (s : State) : State := { s with rides := s.rides.set i r }

/-- Change the record of a ride index. -/
def updRide (i : Nat) (f : Ride → Ride) (s : State) : State := setRide i (f (rideAt i s)) s

/-- Fields every rule reads of an unconfigured ride as 0; no rule that reads them reaches such a ride. -/
def RideCfg.none : RideCfg :=
  { classNo := 0, windowLength := 0, passShare := 0, minLead := 0, earlyGrace := 0, lateGrace := 0, displayStep := 0,
    queueBase := 0, threshold := 0, batch := 0, spacing := 0, burst := 0, interval := 0 }

/-- The configuration fields of a ride. -/
def rideCfg (r : Ride) : RideCfg := r.cfg.getD RideCfg.none

/-- A ride index below 48 that is configured. -/
def configured (i : Nat) (s : State) : Bool := decide (i < Config.rideCount) && (rideAt i s).cfg.isSome

/-- The present rate of a class (R63). -/
def classRate (classNo : Nat) (s : State) : Nat := s.classes.getD classNo 0

/-- N of a ride: the present rate of its class. -/
def nominalRate (i : Nat) (s : State) : Nat := classRate (rideCfg (rideAt i s)).classNo s

/-! ## Time -/

/-- "Now" as a day second. Wherever a rule reads it park time is present (R26); absent it reads 0 (log 11). -/
def nowSecond (s : State) : Nat := s.clock.parkTime.getD 0

/-- The present park minute: the day second div 60. -/
def nowMinute (s : State) : Nat := nowSecond s / 60

/-! ## Event counters (R194) -/

/-- The value of a counter. -/
def readCounter (name : Counter) (c : Counters) : Nat :=
  match name with
  | .transitDropField => c.transitDropField
  | .transitDropPark => c.transitDropPark
  | .originDropField => c.originDropField
  | .originDropPark => c.originDropPark
  | .foreign => c.foreign
  | .unknownStation => c.unknownStation
  | .roleMismatch => c.roleMismatch
  | .malformed => c.malformed
  | .wrongPortMgmt => c.wrongPortMgmt
  | .counterRestarts => c.counterRestarts
  | .dispatchMerged => c.dispatchMerged
  | .offers => c.offers
  | .grants => c.grants
  | .refusals => c.refusals
  | .admits => c.admits
  | .expiries => c.expiries
  | .reportLost => c.reportLost

/-- A counter raised by `n`, holding at 65535. -/
def raiseCounter (n : Nat) (v : Nat) : Nat := min Config.maxCount (v + n)

/-- The counters with one of them raised by `n`. -/
def addCounter (name : Counter) (n : Nat) (c : Counters) : Counters :=
  match name with
  | .transitDropField => { c with transitDropField := raiseCounter n c.transitDropField }
  | .transitDropPark => { c with transitDropPark := raiseCounter n c.transitDropPark }
  | .originDropField => { c with originDropField := raiseCounter n c.originDropField }
  | .originDropPark => { c with originDropPark := raiseCounter n c.originDropPark }
  | .foreign => { c with foreign := raiseCounter n c.foreign }
  | .unknownStation => { c with unknownStation := raiseCounter n c.unknownStation }
  | .roleMismatch => { c with roleMismatch := raiseCounter n c.roleMismatch }
  | .malformed => { c with malformed := raiseCounter n c.malformed }
  | .wrongPortMgmt => { c with wrongPortMgmt := raiseCounter n c.wrongPortMgmt }
  | .counterRestarts => { c with counterRestarts := raiseCounter n c.counterRestarts }
  | .dispatchMerged => { c with dispatchMerged := raiseCounter n c.dispatchMerged }
  | .offers => { c with offers := raiseCounter n c.offers }
  | .grants => { c with grants := raiseCounter n c.grants }
  | .refusals => { c with refusals := raiseCounter n c.refusals }
  | .admits => { c with admits := raiseCounter n c.admits }
  | .expiries => { c with expiries := raiseCounter n c.expiries }
  | .reportLost => { c with reportLost := raiseCounter n c.reportLost }

/-- One event of a counter. -/
def bump (name : Counter) (s : State) : State := { s with counters := addCounter name 1 s.counters }

/-! ## Day totals (R60): they wrap -/

/-- Change the day totals of a ride. -/
def updTotals (i : Nat) (f : DayTotals → DayTotals) (s : State) : State :=
  updRide i (fun r => { r with totals := f r.totals }) s

/-- An addition to a day total, modulo 2^32. -/
def addTotal (total : BitVec 32) (n : Nat) : BitVec 32 := total + BitVec.ofNat 32 n

/-! ## Ports and queues (section 1.6) -/

/-- The opposite port. -/
def otherPort : Port → Port
  | .field => .park
  | .park => .field

/-- A port's unit. -/
def portUnit (p : Port) (s : State) : PortUnit :=
  match p with
  | .field => s.field
  | .park => s.park

/-- Replace a port's unit. -/
def setPort (p : Port) (u : PortUnit) (s : State) : State :=
  match p with
  | .field => { s with field := u }
  | .park => { s with park := u }

/-- The drop counter of a queue (R18). -/
def dropCounter (p : Port) (q : QueueName) : Counter :=
  match p, q with
  | .field, .transit => .transitDropField
  | .park, .transit => .transitDropPark
  | .field, .origin => .originDropField
  | .park, .origin => .originDropPark

/-- A frame joins this port's transit queue now (R18). -/
def transitRoom (p : Port) (s : State) : Bool :=
  (portUnit p s).linkUp && decide ((portUnit p s).transit.length < Config.transitPlaces)

/-- A frame joins this port's origin queue now (R18). -/
def originRoom (p : Port) (s : State) : Bool :=
  (portUnit p s).linkUp && decide ((portUnit p s).origin.length < Config.originPlaces)

/-- Place a frame in a transit queue, or drop and count it (R18). -/
def placeTransit (p : Port) (f : Frame) (s : State) : State :=
  if transitRoom p s then setPort p { portUnit p s with transit := (portUnit p s).transit ++ [f] } s
  else bump (dropCounter p .transit) s

/-- Place a frame in an origin queue, or drop and count it (R18). -/
def placeOrigin (p : Port) (f : OriginFrame) (s : State) : State :=
  if originRoom p s then setPort p { portUnit p s with origin := (portUnit p s).origin ++ [f] } s
  else bump (dropCounter p .origin) s

/-- Forward a frame that arrived at `p`: unchanged to the opposite port's transit queue (R5, Table 1-6). -/
def forwardFrom (p : Port) (f : Frame) (s : State) : State := placeTransit (otherPort p) f s

/-! ## Originated frames (R4) -/

/-- The own station number: the straps, with 0 and 4095 taken as 4094 (R2). -/
def ownStation (s : State) : Nat :=
  if s.straps.toNat = 0 ∨ s.straps.toNat = 4095 then 4094 else s.straps.toNat

/-- An originated frame to a station at the Ethernet broadcast address. -/
def broadcastFrame (dest : Nat) (body : Body) (s : State) : OriginFrame :=
  { ethDst := Config.broadcast, source := ownStation s, dest := dest, body := body }

/-- An answer to the station and the Ethernet address a frame came from. -/
def answerFrame (rx : LineRx) (body : Body) (s : State) : OriginFrame :=
  { ethDst := rx.ethSrc, source := ownStation s, dest := sourceOf rx, body := body }

/-- Answer a field station: the answer goes to the field origin queue (R7). -/
def answerField (rx : LineRx) (body : Body) (s : State) : State :=
  placeOrigin .field (answerFrame rx body s) s

/-- Answer with a REFUSE and count it. The request tag is the first body field of every request (Table 1-2). -/
def refuse (rx : LineRx) (kind : Nat) (reason : RefuseReason) (extra : Nat) (s : State) : State :=
  bump .refusals (answerField rx (.refuse (u16At (bodyOf rx) 0) kind reason extra) s)

/-! ## Reports (R189 to R192) -/

/-- Table 11-1, levels. -/
def reportLevel : ReportKind → Nat
  | .clockState => 12
  | .bookFull => 11
  | .stationSilent => 10
  | .rideState => 9
  | .dayState => 9
  | .releaseTimeout => 8
  | .clockJump => 7
  | .outageMerged => 6
  | .holdsFull => 6
  | .counterRestart => 5
  | .queueClamp => 4
  | .releaseLate => 3
  | .stationLive => 3

/-- Reports move, oldest first, while the park origin queue holds fewer than 8 frames (R192). -/
def moveReportsFrom (waiting : List Report) (s : State) : State :=
  match waiting with
  | [] => { s with reportQueue := [] }
  | r :: rest =>
    if s.park.origin.length < Config.reportMark then
      moveReportsFrom rest (placeOrigin .park (broadcastFrame Config.allStations (.report r) s) s)
    else { s with reportQueue := r :: rest }

/-- Move what can move (R192). -/
def moveReports (s : State) : State := moveReportsFrom s.reportQueue s

/-- Make a report: below the mask it is discarded, else it joins the report queue or is lost (R189, R191). -/
def report (kind : ReportKind) (subject detail : Nat) (s : State) : State :=
  if reportLevel kind < s.reportMask then s
  else if s.reportQueue.length < Config.reportPlaces then
    moveReports { s with reportQueue := s.reportQueue ++
      [{ kind := kind, subject := subject, detail := detail, parkSecond := s.clock.parkTime }] }
  else bump .reportLost s

/-- A detail of two codes, the first in the first detail byte (chapter 11). -/
def twoCodes (first second : Nat) : Nat := first * 256 + second

/-! ## Replies of the management unit (R175) -/

/-- DONE, or CLAMPED when fields were adjusted. -/
def carriedOut (adjusted : List Nat) (data : AnswerData) : Reply :=
  { result := if adjusted = [] then .done else .clamped, adjusted := adjusted, data := data }

/-- DONE with data. -/
def doneWith (data : AnswerData) : Reply := { result := .done, adjusted := [], data := data }

/-- PARTIAL with data. -/
def inPartWith (data : AnswerData) : Reply := { result := .inPart, adjusted := [], data := data }

/-- REFUSED with a reason. -/
def refusedFor (reason : MgmtReason) : Reply := { result := .refused reason, adjusted := [], data := .empty }

/-- REFUSED with a reason and a pass-book reason (R118). -/
def refusedWith (reason : MgmtReason) (why : RefuseReason) (extra : Nat) : Reply :=
  { result := .refused reason, adjusted := [], data := .passBookReason why extra }

/-- A value brought to the nearest bound of its range. -/
def clampTo (low high v : Nat) : Nat := min high (max low v)

/-- The position of a field, when its clamping changed the value carried. -/
def clampedAt (position low high v : Nat) : List Nat := if clampTo low high v = v then [] else [position]

end Sys2Proof.Machine
end

