-- ==== Sys2Proof/Machine/Flags.lean ====
section
/-! DEFINITION. State codes, and the conditions the part derives from its state: silence conditions, the release
condition, disruption, deadlines, the token limit. -/

namespace Sys2Proof.Machine

/-! ## Codes -/

/-- Table 10-1. -/
def deviceCode : DeviceState → Nat
  | .unconfigured => 0
  | .ready => 1
  | .day => 2
  | .closing => 3

/-- Table 2-2. -/
def clockCode : ClockState → Nat
  | .unset => 0
  | .synced => 1
  | .free => 2
  | .adrift => 3

/-- Table 3-2. -/
def rideCode : RideState → Nat
  | .closed => 0
  | .opened => 1
  | .held => 2
  | .down => 3

/-- The ride is OPEN or HELD. -/
def running (state : RideState) : Bool := state == .opened || state == .held

/-! ## Silence conditions (R15) -/

/-- Roles whose binding is a ride index (section 1.4). -/
def rideBound : Role → Bool
  | .entryCounter => true
  | .boardCounter => true
  | .rideControl => true
  | .mergeGate => true
  | .returnScanner => true
  | .kiosk => false
  | .board => false

/-- A record of one of the roles, bound to the ride, that is SILENT. -/
def silentFor (roles : List Role) (i : Nat) (st : Station) : Bool :=
  roles.contains st.role && st.binding == some i && st.supervision == .silent

/-- Counter silence of a ride. -/
def counterSilence (i : Nat) (s : State) : Bool :=
  s.stations.any (fun e => silentFor [.entryCounter, .boardCounter] i e.2)

/-- Control silence of a ride. -/
def controlSilence (i : Nat) (s : State) : Bool := s.stations.any (fun e => silentFor [.rideControl] i e.2)

/-- Gate silence of a ride. -/
def gateSilence (i : Nat) (s : State) : Bool := s.stations.any (fun e => silentFor [.mergeGate] i e.2)

/-! ## The release condition (R149) -/

/-- All six parts of the condition. -/
def releaseCondition (r : Ride) : Bool :=
  match r.cfg with
  | none => false
  | some c =>
    r.state == .opened && decide (0 < c.batch) && decide (c.threshold ≤ r.lane.mergeCounter) &&
      decide (0 < r.lane.occupancy) && r.lane.outstanding.isNone && !r.lane.gateSilence

/-! ## Passes -/

/-- Five minutes while the clock is ADRIFT (R26, R111, R143). -/
def adriftMinutes (s : State) : Nat := if s.clock.state = .adrift then 5 else 0

/-- The deadline minute of a windowed pass that starts at `start` (section 6.4). -/
def deadlineOf (start : Nat) (p : Pass) (s : State) : Nat :=
  start + p.length + (rideCfg (rideAt p.ride s)).lateGrace + adriftMinutes s

/-- An outage overlaps a usable period: both comparisons strict, an open end counts as now (R111).
`from_` seconds are compared as `end + grace > start` so that a negative start stays negative. -/
def outageOverlaps (start earlyGrace deadline now : Nat) (o : Outage) : Bool :=
  decide (o.start < deadline * 60 ∧ start * 60 < o.stop.getD now + earlyGrace * 60)

/-- A windowed pass is disrupted (R111). A pass without a window is not tested. -/
def disrupted (p : Pass) (s : State) : Bool :=
  match p.start with
  | none => false
  | some start =>
    (rideAt p.ride s).outages.any
      (outageOverlaps start (rideCfg (rideAt p.ride s)).earlyGrace (deadlineOf start p s) (nowSecond s))

/-- Disrupted as a query shows it: always for ANYTIME passes (R121). -/
def shownDisrupted (p : Pass) (s : State) : Bool := p.state == .anytime || disrupted p s

/-! ## The pass book's questions (R104, R109, R110) -/

/-- Free entries of the pass table (R104). -/
def freeEntries (s : State) : Nat := Config.passPlaces - s.passes.length

/-- The record of a token. -/
def tokenRec (token : List Byte) (s : State) : Option TokenRec := tblGet s.tokens (tokenKey token)

/-- The live passes of a token, with their indices, in grant order. -/
def tokenPasses (token : List Byte) (s : State) : List (Nat × Pass) :=
  match tokenRec token s with
  | none => []
  | some t => t.passes.filterMap (fun k => (tblGet s.passes k).map (fun p => (k, p)))

/-- The live pass of a token on a ride (R110). -/
def passOn (token : List Byte) (i : Nat) (s : State) : Option (Nat × Pass) :=
  (tokenPasses token s).find? (fun e => e.2.ride == i)

/-- The hold of a token on a ride. -/
def holdOn (token : List Byte) (i : Nat) (s : State) : Option (Nat × Hold) :=
  s.holds.find? (fun e => e.2.token == token && e.2.ride == i)

/-- A token's places: live passes plus holds (R109). -/
def placesOf (token : List Byte) (s : State) : Nat :=
  match tokenRec token s with
  | none => 0
  | some t => t.passes.length + t.holds

/-- A token's windowed places: live windowed passes plus holds (R109). -/
def windowedPlacesOf (token : List Byte) (s : State) : Nat :=
  match tokenRec token s with
  | none => 0
  | some t => ((tokenPasses token s).filter (fun e => e.2.start.isSome)).length + t.holds

/-- At its limit for a windowed request (R109). -/
def atWindowedLimit (token : List Byte) (s : State) : Bool :=
  decide (s.settings.tokenLimit ≤ windowedPlacesOf token s ∨ Config.tokenPlaces ≤ placesOf token s)

/-- At its limit for a courtesy pass (R109). -/
def atCourtesyLimit (token : List Byte) (s : State) : Bool := decide (Config.tokenPlaces ≤ placesOf token s)

/-- A token's busy windows, as start and length: its windowed passes, then its holds (R98, R110). -/
def busyWindows (token : List Byte) (s : State) : List (Nat × Nat) :=
  (tokenPasses token s).filterMap (fun e => e.2.start.map (fun m => (m, e.2.length))) ++
    (s.holds.filter (fun e => e.2.token == token)).map
      (fun e => (e.2.start, (rideCfg (rideAt e.2.ride s)).windowLength))

/-- Live passes of a ride. -/
def livePassesOn (i : Nat) (s : State) : Nat := (s.passes.filter (fun e => e.2.ride == i)).length

/-- Holds of a ride. -/
def holdsOn (i : Nat) (s : State) : Nat := (s.holds.filter (fun e => e.2.ride == i)).length

end Sys2Proof.Machine
end

