-- ==== Sys2Proof/Machine/Estimator.lean ====
section
/-! DEFINITION. The wait estimator (chapter 4), as changes of one ride's record. -/

namespace Sys2Proof.Machine

/-- The standby rate S (R74). -/
def standbyRateOf (throughput threshold batch occupancy : Nat) : Nat :=
  max 1 (if batch = 0 ∨ occupancy = 0 then throughput else throughput * threshold / (threshold + batch))

/-- The raw wait W_raw (R75). -/
def rawWaitOf (base q rate : Nat) : Nat := min 999 (base + (q * 60 + rate - 1) / rate)

/-- top(s), Table 4-2. -/
def topOf (step : Nat) : Nat :=
  if step = 10 then 990 else if step = 5 then 995 else 999

/-- The candidate C (R77). -/
def candidateOf (step wait : Nat) : Nat := min (topOf step) ((wait + step - 1) / step * step)

/-- Recompute S and then W_raw of a configured ride (R74 to R76); an unconfigured ride keeps S = 1, W_raw = 0. -/
def recompute (r : Ride) : Ride :=
  match r.cfg with
  | none => r
  | some c =>
    let rate := standbyRateOf r.est.throughput c.threshold c.batch r.lane.occupancy
    { r with est := { r.est with standbyRate := rate, rawWait := rawWaitOf c.queueBase r.q rate } }

/-- The step rule (R80): the new posted wait. -/
def stepRule (step posted candidate : Nat) : Nat :=
  if posted + step ≤ candidate ∨ candidate + 2 * step ≤ posted then candidate else posted

/-- A posting run (R78 to R80): P moves only while the ride is OPEN or HELD and not STALE. -/
def postingRun (r : Ride) : Ride :=
  match r.cfg with
  | none => r
  | some c =>
    if running r.state && !r.est.stale then
      let candidate := candidateOf c.displayStep r.est.rawWait
      if r.est.firstPosting then
        { r with est := { r.est with posted := candidate, firstPosting := false } }
      else { r with est := { r.est with posted := stepRule c.displayStep r.est.posted candidate } }
    else r

/-- A recomputation, followed at once by a posting run (R76). -/
def reestimate (r : Ride) : Ride := postingRun (recompute r)

/-- A throughput held in the band of N (R72). -/
def inBand (rate throughput : Nat) : Nat := clampTo (rate / 4) (3 * rate / 2) throughput

/-- T clamped to the band of a new N (R65, R72). -/
def clampThroughput (rate : Nat) (r : Ride) : Ride :=
  { r with est := { r.est with throughput := inBand rate r.est.throughput } }

/-- Seeding at entry to OPEN from CLOSED (R73), which also makes first posting pending (R79). -/
def seedThroughput (rate : Nat) (r : Ride) : Ride :=
  { r with est := { r.est with throughput := rate, mark := none, carry := 0, firstPosting := true } }

/-- The record a newly configured ride starts with, before S and W_raw are computed (R66). -/
def freshEstimate (rate : Nat) (stale : Bool) : Estimate :=
  { throughput := rate, mark := none, carry := 0, standbyRate := 1, rawWait := 0, posted := 0, stale := stale,
    firstPosting := false }

/-- STALE set, or cleared with a first posting pending and a posting run at once (R82). -/
def setStale (stale : Bool) (r : Ride) : Ride :=
  if stale then { r with est := { r.est with stale := true } }
  else postingRun { r with est := { r.est with stale := false, firstPosting := true } }

/-- One eighth of the way from T toward a sample rate, truncated toward zero (R71). -/
def towardRate (throughput rate : Nat) : Nat :=
  if throughput ≤ rate then throughput + (rate - throughput) / 8 else throughput - (throughput - rate) / 8

/-- The least time since the dispatch mark that is not merged (R69). -/
def mergeLimit (r : Ride) : Nat := max (rideCfg r).spacing 1

/-- A dispatch sampled at elapsed count `t` with `f` seats filled is merged (R69). -/
def dispatchMerges (t : Nat) (r : Ride) : Bool :=
  match r.est.mark with
  | none => false
  | some m => decide (t - m < mergeLimit r)

/-- The sampling of a dispatch by an OPEN or HELD ride of nominal rate `rate` (R68 to R71). -/
def sampleDispatch (rate t f : Nat) (r : Ride) : Ride :=
  match r.est.mark with
  | none => { r with est := { r.est with mark := some t, carry := 0 } }
  | some m =>
    if t - m < mergeLimit r then
      { r with est := { r.est with carry := min Config.maxCount (r.est.carry + f) } }
    else if 900 < t - m then { r with est := { r.est with mark := some t, carry := 0 } }
    else
      let moved := inBand rate (towardRate r.est.throughput ((f + r.est.carry) * 3600 / (t - m)))
      let sampled := { r with est := { r.est with throughput := moved, mark := some t, carry := 0 } }
      if moved = r.est.throughput then sampled else reestimate sampled

end Sys2Proof.Machine
end

