-- ==== Sys2Proof/Machine/Lane.lean ====
section
/-! DEFINITION. The return lane: merge counter, releases and return occupancy (sections 8.2 to 8.5). -/

namespace Sys2Proof.Machine

/-- Change the return lane's record of a ride. -/
def updLane (i : Nat) (f : Lane → Lane) (s : State) : State := updRide i (fun r => { r with lane := f r.lane }) s

/-- A MERGE_GATE record bound to the ride. -/
def gateOf (i : Nat) (st : Station) : Bool := st.role == .mergeGate && st.binding == some i

/-- Where a RELEASE goes: the lowest MERGE_GATE bound to the ride, or all (R150). -/
def releaseTarget (i : Nat) (s : State) : Nat :=
  match s.stations.find? (fun e => gateOf i e.2) with
  | some e => e.1
  | none => Config.allStations

/-- The batch of a release: K or R, whichever is smaller (R150). -/
def releaseBatch (r : Ride) : Nat := min (rideCfg r).batch r.lane.occupancy

/-- Send a release (R150). -/
def sendRelease (i : Nat) (s : State) : State :=
  updLane i
    (fun l => { l with mergeCounter := 0,
                       outstanding := some { batch := releaseBatch (rideAt i s), deadline := s.clock.elapsed + 30 } })
    (placeOrigin .field (broadcastFrame (releaseTarget i s) (.release (releaseBatch (rideAt i s))) s) s)

/-- Test the release condition; when it holds, send at once (R149). -/
def testRelease (i : Nat) (s : State) : State :=
  if releaseCondition (rideAt i s) then sendRelease i s else s

/-- R set to a value; a passage between 0 and above 0 recomputes the estimate (R146). -/
def setOccupancy (i v : Nat) (s : State) : State :=
  updRide i
    (fun r =>
      let changed := { r with lane := { r.lane with occupancy := v } }
      if (r.lane.occupancy = 0) = (v = 0) then changed else reestimate changed)
    s

/-- R raised by admitted guests, holding at 9999, and the release condition tested when it rose (R146). -/
def raiseOccupancy (i guests : Nat) (s : State) : State :=
  let old := (rideAt i s).lane.occupancy
  let total := old + guests
  let raised := setOccupancy i (min Config.maxOccupancy total) s
  let reported :=
    if Config.maxOccupancy < total then report .queueClamp i (total - Config.maxOccupancy) raised else raised
  if old < min Config.maxOccupancy total then testRelease i reported else reported

/-- R lowered by released guests, holding at 0 (R146). -/
def lowerOccupancy (i guests : Nat) (s : State) : State :=
  let old := (rideAt i s).lane.occupancy
  let lowered := setOccupancy i (old - guests) s
  if old < guests then report .queueClamp i (guests - old) lowered else lowered

/-- The return value of a SET_QUEUE (R147). -/
def setReturn (i v : Nat) (s : State) : State := testRelease i (setOccupancy i v s)

/-- A boarding delta added to the merge counter, and the condition tested (R148). -/
def addBoardings (i guests : Nat) (s : State) : State :=
  testRelease i (updLane i (fun l => { l with mergeCounter := min 255 (l.mergeCounter + guests) }) s)

/-- The gate silence the station table hands on; its end tests the condition (R156). -/
def setGateSilence (i : Nat) (silent : Bool) (s : State) : State :=
  let set := updLane i (fun l => { l with gateSilence := silent }) s
  if silent then set else testRelease i set

/-- A RELEASED of count `n` for a configured ride in DAY or CLOSING: on time (R151) or late (R153). -/
def takeReleased (i n : Nat) (s : State) : State :=
  match (rideAt i s).lane.outstanding with
  | some o =>
    testRelease i (updLane i (fun l => { l with outstanding := none }) (lowerOccupancy i (min n o.batch) s))
  | none => report .releaseLate i n (lowerOccupancy i n s)

/-- The release deadline of a ride (R152). -/
def timeOutRelease (i : Nat) (o : Release) (s : State) : State :=
  testRelease i
    (report .releaseTimeout i o.batch (updLane i (fun l => { l with outstanding := none }) s))

end Sys2Proof.Machine
end

