-- ==== Sys2Proof/Machine/Stations.lean ====
section
/-! DEFINITION. The station table and silence supervision (sections 1.4 and 1.5). -/

namespace Sys2Proof.Machine

/-- Counter silence handed to the estimator when it changed (R16, R82). -/
def syncCounterSilence (i : Nat) (s : State) : State :=
  if (rideAt i s).est.stale = counterSilence i s then s else updRide i (setStale (counterSilence i s)) s

/-- Control silence handed to the ride table when it changed (R16, R49). -/
def syncControlSilence (i : Nat) (s : State) : State :=
  if (rideAt i s).noControl = controlSilence i s then s
  else updRide i (fun r => { r with noControl := controlSilence i s }) s

/-- Gate silence handed to the return lane when it changed (R16, R156). -/
def syncGateSilence (i : Nat) (s : State) : State :=
  if (rideAt i s).lane.gateSilence = gateSilence i s then s else setGateSilence i (gateSilence i s) s

/-- The silence conditions of a ride recomputed (R15 to R17). -/
def syncSilence (i : Nat) (s : State) : State :=
  syncGateSilence i (syncControlSilence i (syncCounterSilence i s))

/-- Recompute for the ride a record is bound to, if its role is a ride-bound one (R14). -/
def syncStation (st : Station) (s : State) : State :=
  if rideBound st.role then
    match st.binding with
    | some i => syncSilence i s
    | none => s
  else s

/-- A binding as a report detail: 0FFFFH for a kiosk (R13). -/
def bindingDetail (st : Station) : Nat := st.binding.getD Config.noMinute

/-- Replace a station record. -/
def putStation (number : Nat) (st : Station) (s : State) : State :=
  { s with stations := tblSet s.stations number st }

/-- The record after an accepted frame: LIVE, and the deadline restarted when supervised (R13). -/
def heard (elapsed : Nat) (st : Station) : Station :=
  { st with supervision := .live, deadline := if st.window = 0 then none else some (elapsed + st.window) }

/-- An accepted frame of a station (R13): a SILENT station is reported and its ride recomputed. -/
def hear (number : Nat) (st : Station) (s : State) : State :=
  let updated := putStation number (heard s.clock.elapsed st) s
  if st.supervision = .silent then
    syncStation st (report .stationLive number (bindingDetail st) updated)
  else updated

/-- A silence deadline reached (R14). -/
def goSilent (number : Nat) (st : Station) (s : State) : State :=
  syncStation st
    (report .stationSilent number (bindingDetail st)
      (putStation number { st with supervision := .silent, deadline := none } s))

/-- The silence window after the clamps of R10. -/
def clampWindow (role : Role) (window : Nat) : Nat :=
  if role = .board then 0 else if window = 0 then 0 else clampTo 10 3600 window

/-- The binding LOAD_STATION stores: none for a kiosk (R10). -/
def loadBinding (role : Role) (binding : Nat) : Option Nat := if role = .kiosk then none else some binding

/-- A binding out of range for its role (R10). -/
def bindingOutOfRange (role : Role) (binding : Nat) : Bool :=
  if role = .kiosk then false
  else if role = .board then decide (63 < binding)
  else decide (47 < binding)

/-- After a record is replaced or removed: its ride is recomputed if it was SILENT (R11, R12). -/
def leaveTable (old : Option Station) (s : State) : State :=
  match old with
  | some st => if st.supervision = .silent then syncStation st s else s
  | none => s

end Sys2Proof.Machine
end

