-- ==== Sys2Proof/Machine/Calendar.lean ====
section
/-! DEFINITION. The window calendar (chapter 5): rings, capacity, the operations on a window, the offer search and
the next-return value. Rolls, which cancel holds, stand with the kiosk exchange's holds in Kiosk.lean. -/

namespace Sys2Proof.Machine

/-! ## Windows -/

/-- Room: capacity less issued less held (section 5.1). -/
def roomOf (w : Window) : Nat := w.capacity - w.issued - w.held

/-- The window with its room map mark taken afresh (R88). -/
def remark (w : Window) : Window := { w with mark := decide (1 ≤ roomOf w) }

/-- The computed capacity of a window (R86). -/
def computedCapacity (rate share length : Nat) : Nat := min 2000 (rate * share * length / 6000)

/-- The computed capacity of a ride's windows, from its present configuration. -/
def rideCapacity (i : Nat) (s : State) : Nat :=
  computedCapacity (nominalRate i s) (rideCfg (rideAt i s)).passShare (rideCfg (rideAt i s)).windowLength

/-- A window with something issued and nothing held; its capacity covers what is issued, at most 2000 (R86, R91). -/
def newWindow (capacity start issued : Nat) : Window :=
  remark { start := start, capacity := min 2000 (max capacity issued), issued := issued, held := 0, mark := false }

/-- The start of the window that contains a minute (section 5.1). -/
def windowStart (minute length : Nat) : Nat := minute / length * length

/-- Twenty-four consecutive windows from the one that contains `minute` (R84, R90, R91). -/
def ringFrom (minute length capacity : Nat) (issuedAt : Nat → Nat) : List Window :=
  (List.range Config.ringLength).map
    (fun p =>
      newWindow capacity (windowStart minute length + p * length) (issuedAt (windowStart minute length + p * length)))

/-- Window length of a ride. -/
def lengthOf (i : Nat) (s : State) : Nat := (rideCfg (rideAt i s)).windowLength

/-- Replace a ride's ring. -/
def setRing (i : Nat) (ring : List Window) (s : State) : State := updRide i (fun r => { r with ring := ring }) s

/-- Build a ring with nothing issued (R84). -/
def buildRing (i : Nat) (s : State) : State :=
  setRing i (ringFrom (nowMinute s) (lengthOf i s) (rideCapacity i s) (fun _ => 0)) s

/-- Parties of a ride's live passes with a given window start and window length (R91). -/
def grantedInto (i start length : Nat) (s : State) : Nat :=
  ((s.passes.filter (fun e => e.2.ride == i && e.2.start == some start && e.2.length == length)).map
    (fun e => e.2.party)).sum

/-- Rebuild a ring under a new window length (R91). -/
def rebuildForLength (i : Nat) (s : State) : State :=
  if (rideAt i s).ring = [] then s
  else
    setRing i
      (ringFrom (nowMinute s) (lengthOf i s) (rideCapacity i s) (fun start => grantedInto i start (lengthOf i s) s)) s

/-- One window of a capacity recomputation: future windows take the max rule (R87). -/
def recapacity (minute capacity : Nat) (w : Window) : Window :=
  if minute < w.start then remark { w with capacity := min 2000 (max capacity (w.issued + w.held)) } else w

/-- Recompute the capacity of a ride's future windows (R87). -/
def recomputeCapacity (i : Nat) (s : State) : State :=
  setRing i ((rideAt i s).ring.map (recapacity (nowMinute s) (rideCapacity i s))) s

/-! ## Operations on a window (section 5.4) -/

/-- Change the window of a ride's ring that starts at a minute, and take its mark afresh. -/
def updWindow (i start : Nat) (f : Window → Window) (s : State) : State :=
  setRing i ((rideAt i s).ring.map (fun w => if w.start = start then remark (f w) else w)) s

/-- R93. -/
def reserveRoom (i start party : Nat) (s : State) : State :=
  updWindow i start (fun w => { w with held := w.held + party }) s

/-- R94, Table 5-1: the capacity stays, so the room rises by the whole party, after a recomputation too (log 25). -/
def releaseRoom (i start party : Nat) (s : State) : State :=
  updWindow i start (fun w => { w with held := w.held - party }) s

/-- R95. -/
def convertRoom (i start party : Nat) (s : State) : State :=
  updWindow i start (fun w => { w with held := w.held - party, issued := w.issued + party }) s

/-- Return applies: the window is in the ring, of the present L, and still to come (R96). -/
def returnApplies (i start length : Nat) (s : State) : Bool :=
  (rideAt i s).ring.any (fun w => w.start == start) && length == lengthOf i s && decide (nowMinute s < start)

/-- R96. A window that came into the ring again with less issued than the party goes to issued 0 (log 28). -/
def returnRoom (i start length party : Nat) (s : State) : State :=
  if returnApplies i start length s then updWindow i start (fun w => { w with issued := w.issued - party }) s else s

/-- Guests a return gives back: the party, or what its window has issued if that is less (log 28); 0 where the return
changes nothing (R96, R117). -/
def returnedGuests (i start length party : Nat) (s : State) : Nat :=
  if returnApplies i start length s then
    match (rideAt i s).ring.find? (fun w => w.start == start) with
    | some w => min party w.issued
    | none => 0
  else 0

/-! ## The offer search (section 5.5) -/

/-- A minute rounded up to a multiple of a window length. -/
def roundUpTo (length minute : Nat) : Nat := (minute + length - 1) / length * length

/-- The offer start, for a not-before minute that may be absent (R97). -/
def offerStart (i : Nat) (notBefore : Option Nat) (s : State) : Nat :=
  let lead := max (rideCfg (rideAt i s)).minLead (rideAt i s).est.rawWait
  roundUpTo (lengthOf i s) (max (nowMinute s + lead) (notBefore.getD 0))

/-- Two windows overlap: each starts before the other ends (R98). -/
def overlaps (start length busyStart busyLength : Nat) : Bool :=
  decide (start < busyStart + busyLength ∧ busyStart < start + length)

/-- A window the search does not skip (R98). -/
def offerable (party length : Nat) (busy : List (Nat × Nat)) (w : Window) : Bool :=
  w.mark && decide (party ≤ roomOf w) && !busy.any (fun b => overlaps w.start length b.1 b.2)

/-- The first window, from the offer start on, that is not skipped (R97, R98). Positions before the offer start are
not examined; an offer start beyond position 23 leaves none, and one before position 0 leaves all. -/
def searchRing (i party from_ : Nat) (busy : List (Nat × Nat)) (s : State) : Option Window :=
  (rideAt i s).ring.find? (fun w => decide (from_ ≤ w.start) && offerable party (lengthOf i s) busy w)

/-! ## The next-return value (section 5.6) -/

/-- The start of the first marked window from the offer start on (R100). -/
def nextWindow (i : Nat) (s : State) : Option Window :=
  (rideAt i s).ring.find? (fun w => decide (offerStart i none s ≤ w.start) && w.mark)

/-- The next-return value, 0FFFFH for none (R101). -/
def nextReturn (i : Nat) (s : State) : Nat :=
  if configured i s && (rideAt i s).state == .opened && (rideCfg (rideAt i s)).passShare != 0 &&
      s.clock.state != .adrift then
    match nextWindow i s with
    | some w => w.start
    | none => Config.noMinute
  else Config.noMinute

end Sys2Proof.Machine
end

