-- ==== Sys2Proof/Machine/PassBook.lean ====
section
/-! DEFINITION. The pass book (chapter 6): token records, creation, ends, expiry and cancellation of passes. -/

namespace Sys2Proof.Machine

/-! ## The token table (R108) -/

/-- Keep a token record, or free it when it has no pass and no hold. -/
def putToken (t : TokenRec) (s : State) : State :=
  if t.passes = [] ∧ t.holds = 0 then { s with tokens := tblErase s.tokens (tokenKey t.token) }
  else { s with tokens := tblSet s.tokens (tokenKey t.token) t }

/-- Change a token's record, creating it first if there is none. -/
def updToken (token : List Byte) (f : TokenRec → TokenRec) (s : State) : State :=
  putToken (f ((tokenRec token s).getD { token := token, passes := [], holds := 0 })) s

/-- One hold more. -/
def raiseHolds (token : List Byte) (s : State) : State := updToken token (fun t => { t with holds := t.holds + 1 }) s

/-- One hold fewer. -/
def lowerHolds (token : List Byte) (s : State) : State := updToken token (fun t => { t with holds := t.holds - 1 }) s

/-- A pass index off the token's pass list; the later ones close up (R106). -/
def dropPass (token : List Byte) (k : Nat) (s : State) : State :=
  updToken token (fun t => { t with passes := t.passes.filter (· != k) }) s

/-! ## The pass log (R120) -/

/-- A PASSLOG frame placed straight in the park origin queue (R120, R193). -/
def passLog (event : PassEvent) (k : Nat) (p : Pass) (count : Nat) (s : State) : State :=
  placeOrigin .park
    (broadcastFrame Config.allStations
      (.passLog event k p.ride count (p.start.getD Config.noMinute) s.clock.parkTime p.token) s) s

/-! ## Creation -/

/-- The free entry with the lowest index (R104). -/
def freeEntry (s : State) : Nat := tblFree s.passes 0

/-- Put a pass into an entry. -/
def putPass (k : Nat) (p : Pass) (s : State) : State := { s with passes := tblSet s.passes k p }

/-- One more pass granted on a ride (R60). -/
def countGranted (i : Nat) (s : State) : State :=
  updTotals i (fun t => { t with granted := addTotal t.granted 1 }) s

/-- The pass a TAKE creates from a hold (R105). -/
def passFromHold (h : Hold) (s : State) : Pass :=
  { token := h.token, ride := h.ride, start := some h.start, length := lengthOf h.ride s, party := h.party,
    admitted := 0, state := .issued }

/-- Create the pass of a granted TAKE (R105): entry, pass list and hold count together, totals, GRANTS, PASSLOG. -/
def createGranted (h : Hold) (s : State) : State :=
  let k := freeEntry s
  let p := passFromHold h s
  let listed := updToken h.token (fun t => { t with passes := t.passes ++ [k], holds := t.holds - 1 }) (putPass k p s)
  passLog .grant k p p.party (bump .grants (countGranted h.ride listed))

/-- The pass ISSUE_COURTESY creates (R119). -/
def courtesyPass (token : List Byte) (i party : Nat) : Pass :=
  { token := token, ride := i, start := none, length := 0, party := party, admitted := 0, state := .anytime }

/-- Create a courtesy pass (R119). -/
def createCourtesy (token : List Byte) (i party : Nat) (s : State) : State :=
  let k := freeEntry s
  let p := courtesyPass token i party
  let listed := updToken token (fun t => { t with passes := t.passes ++ [k] }) (putPass k p s)
  passLog .courtesy k p p.party (countGranted i listed)

/-! ## Ends of a pass (R106) -/

/-- The index off its token's list, the token record freed if empty, the entry freed (R106, after the PASSLOG). -/
def freePass (k : Nat) (p : Pass) (s : State) : State :=
  let unlisted := dropPass p.token k s
  { unlisted with passes := tblErase unlisted.passes k }

/-- Guests admitted on a pass (R107): freed when the party is complete. -/
def admitOn (k : Nat) (p : Pass) (guests : Nat) (s : State) : State :=
  if p.party ≤ p.admitted + guests then freePass k p s
  else putPass k { p with admitted := p.admitted + guests } s

/-- A pass that expiry examines at its deadline (R113). -/
def examinePass (k : Nat) (p : Pass) (s : State) : State :=
  if disrupted p s then
    passLog .disrupted k p (p.party - p.admitted) (putPass k { p with state := .anytime } s)
  else freePass k p (passLog .expire k p p.admitted (bump .expiries s))

/-- A pass that the event of minute `m` examines: ISSUED, its deadline reached (R113). -/
def expiryDue (m : Nat) (p : Pass) (s : State) : Bool :=
  p.state == .issued &&
    match p.start with
    | none => false
    | some start => decide (deadlineOf start p s ≤ m)

/-- The pass book takes the event of minute `m`: due passes in increasing order of index (R113). -/
def expirePasses (m : Nat) (s : State) : State :=
  (s.passes.filter (fun e => expiryDue m e.2 s)).foldl (fun t e => examinePass e.1 e.2 t) s

/-- Guests a cancellation gives back: those not admitted (R116). -/
def unadmitted (p : Pass) : Nat := p.party - p.admitted

/-- The calendar's return for a cancelled pass; a courtesy pass calls none (R116). -/
def returnFor (p : Pass) (s : State) : State :=
  match p.start with
  | none => s
  | some start => returnRoom p.ride start p.length (unadmitted p) s

/-- Guests the calendar gave back (R117); a courtesy pass calls no return (R116). -/
def returnedFor (p : Pass) (s : State) : Nat :=
  match p.start with
  | none => 0
  | some start => returnedGuests p.ride start p.length (unadmitted p) s

/-- A cancellation (R116). -/
def cancelLive (k : Nat) (p : Pass) (s : State) : State :=
  freePass k p (passLog .cancel k p (unadmitted p) (returnFor p s))

/-- A pass of a query's answer (R121). -/
def passEntry (k : Nat) (p : Pass) (s : State) : PassEntry :=
  { index := k, ride := p.ride, start := p.start, length := p.length, party := p.party, admitted := p.admitted,
    state := p.state, disrupted := shownDisrupted p s }

end Sys2Proof.Machine
end

