-- ==== Sys2Proof/Machine/Kiosk.lean ====
section
/-! DEFINITION. The kiosk exchange's lists (chapter 7): holds, expired ids, recent offers; and the calendar's rolls,
which cancel holds (section 5.3). -/

namespace Sys2Proof.Machine

/-! ## Hold ids (R123) -/

/-- The id after this one: 65535 is followed by 1. -/
def nextIdAfter (id : Nat) : Nat := if id = 65535 then 1 else id + 1

/-- A hold in the list has this id. -/
def idInUse (id : Nat) (s : State) : Bool := s.holds.any (fun e => e.2.id == id)

/-- The first unused id at or after `id`, looking at most `fuel` further. -/
def unusedId (fuel id : Nat) (s : State) : Nat :=
  match fuel with
  | 0 => id
  | fuel + 1 => if idInUse id s then unusedId fuel (nextIdAfter id) s else id

/-- The id the next hold is given: an unused one is found within 64 advances. -/
def drawnId (s : State) : Nat := unusedId Config.holdPlaces s.nextId s

/-- The hold with an id. -/
def holdWithId (id : Nat) (s : State) : Option (Nat × Hold) := s.holds.find? (fun e => e.2.id == id)

/-! ## Making and ending holds -/

/-- Make a hold in the lowest free slot; the next id is the given one advanced once (R123). -/
def makeHold (h : Hold) (s : State) : State :=
  { s with holds := tblSet s.holds (tblFree s.holds 0) h, nextId := nextIdAfter h.id }

/-- A hold out of its slot, its window and token left as they are. -/
def clearSlot (slot : Nat) (s : State) : State := { s with holds := tblErase s.holds slot }

/-- A hold cancelled with its window: no release is made (R139). -/
def cancelHold (slot : Nat) (h : Hold) (s : State) : State := lowerHolds h.token (clearSlot slot s)

/-- A hold released: its room goes back (R94, R134, R136 to R138). -/
def releaseHold (slot : Nat) (h : Hold) (s : State) : State :=
  cancelHold slot h (releaseRoom h.ride h.start h.party s)

/-- An id appended to the expired-id list (R124). -/
def rememberExpired (id : Nat) (ids : List Nat) : List Nat :=
  let appended := ids.filter (· != id) ++ [id]
  appended.drop (appended.length - Config.expiredPlaces)

/-- A hold expires (R137). -/
def expireHold (slot : Nat) (h : Hold) (s : State) : State :=
  let released := releaseHold slot h s
  { released with expiredIds := rememberExpired h.id released.expiredIds }

/-- Every hold of a ride released, in increasing order of slot (R138). -/
def releaseHoldsOn (i : Nat) (s : State) : State :=
  (s.holds.filter (fun e => e.2.ride == i)).foldl (fun t e => releaseHold e.1 e.2 t) s

/-- Every hold of a ride whose window start is one of `starts` cancelled, in increasing order of slot (R139). -/
def cancelHoldsOn (i : Nat) (starts : List Nat) (s : State) : State :=
  (s.holds.filter (fun e => e.2.ride == i && starts.contains e.2.start)).foldl (fun t e => cancelHold e.1 e.2 t) s

/-- Seconds to the earliest hold expiry, at least 1 (R128). -/
def secondsToExpiry (s : State) : Nat :=
  match (s.holds.map (fun e => e.2.deadline)).min? with
  | some d => max 1 (d - s.clock.elapsed)
  | none => 1

/-! ## The offer rate limiter (R130, R131) -/

/-- The entries later than the elapsed count less the offer interval. -/
def recentWithin (interval elapsed : Nat) (recent : List Nat) : List Nat :=
  recent.filter (fun t => decide (elapsed < t + interval))

/-- The recent-offer list after check 13's removals. -/
def prunedRecent (i : Nat) (s : State) : List Nat :=
  let kept := recentWithin (rideCfg (rideAt i s)).interval s.clock.elapsed (rideAt i s).recent
  kept.drop (kept.length - (rideCfg (rideAt i s)).burst)

/-- Replace a ride's recent-offer list. -/
def setRecent (i : Nat) (recent : List Nat) (s : State) : State := updRide i (fun r => { r with recent := recent }) s

/-! ## Rolls (section 5.3) -/

/-- The end of a ring: the start of the current window plus 24 window lengths. -/
def ringEnd (length : Nat) (ring : List Window) : Nat :=
  match ring with
  | [] => 0
  | w :: _ => w.start + Config.ringLength * length

/-- One roll of the window list: the current window leaves, a new one enters at the end (R89). -/
def rolled (length capacity : Nat) (ring : List Window) : List Window :=
  match ring with
  | [] => []
  | w :: rest => rest ++ [newWindow capacity ((rest.getLastD w).start + length) 0]

/-- The ring rolls once, after the holds on its current window are cancelled (R89). -/
def rollOnce (i : Nat) (w : Window) (s : State) : State :=
  let freed := cancelHoldsOn i [w.start] s
  setRing i (rolled (lengthOf i freed) (rideCapacity i freed) (rideAt i freed).ring) freed

/-- The ring rolls as long as its current window's end is at or before `m` (R89). Each roll moves the start on by a
window length, so `m + 1` rolls are enough. -/
def rollTo (fuel i m : Nat) (s : State) : State :=
  match fuel with
  | 0 => s
  | fuel + 1 =>
    match (rideAt i s).ring with
    | [] => s
    | w :: _ => if w.start + lengthOf i s ≤ m then rollTo fuel i m (rollOnce i w s) else s

/-- The ring rebuilt at the last minute of a run that passes its end (R90). -/
def rebuildAt (i minute : Nat) (s : State) : State :=
  let freed := cancelHoldsOn i ((rideAt i s).ring.map (fun w => w.start)) s
  setRing i (ringFrom minute (lengthOf i freed) (rideCapacity i freed) (fun _ => 0)) freed

/-- A ride's ring takes the event of minute `m`, of the run `first` to `last` (R89, R90). -/
def ringMinute (first last m : Nat) (i : Nat) (s : State) : State :=
  if (rideAt i s).ring = [] then s
  else if m = first ∧ ringEnd (lengthOf i s) (rideAt i s).ring ≤ last then rebuildAt i last s
  else rollTo (m + 1) i m s

/-- The calendar takes a minute event for every ride. -/
def calendarMinute (first last m : Nat) (s : State) : State :=
  (List.range Config.rideCount).foldl (fun t i => ringMinute first last m i t) s

end Sys2Proof.Machine
end

