-- ==== Sys2Proof/Machine/Rides.lean ====
section
/-! DEFINITION. The ride table (chapter 3): ride states, outages, counts, configuration and its hand-ons. -/

namespace Sys2Proof.Machine

/-! ## Outages (section 3.3) -/

/-- The end of the last interval of a list, its start while it is open. -/
def lastEnd (os : List Outage) : Nat :=
  match os.getLast? with
  | some o => o.stop.getD o.start
  | none => 0

/-- The two earliest intervals of a full list merged (R52). `now` stands for an open end, which a full list does not
have when an outage is opened. -/
def mergeEarliest (now : Nat) (os : List Outage) : List Outage :=
  match os with
  | a :: b :: rest =>
    { start := a.start, stop := some (max (a.stop.getD now) (b.stop.getD now)) } :: rest
  | short => short

/-- The outage list with a new open outage, that does not start before the end of the last (R50, R52). -/
def withOutage (now : Nat) (os : List Outage) : List Outage :=
  let room := if os.length < 4 then os else mergeEarliest now os
  room ++ [{ start := max now (lastEnd room), stop := none }]

/-- The list with its open outage closed, not before its start (R51). -/
def withOutageClosed (now : Nat) (os : List Outage) : List Outage :=
  os.map (fun o => if o.stop.isNone then { o with stop := some (max now o.start) } else o)

/-- A ride entering DOWN opens an outage (R50); a full list merges first and is reported (R52). -/
def openOutage (i : Nat) (s : State) : State :=
  let os := (rideAt i s).outages
  let reported := if os.length < 4 then s else report .outageMerged i ((os.map (fun o => o.start)).headD 0 / 60) s
  updRide i (fun r => { r with outages := withOutage (nowSecond s) r.outages }) reported

/-- A ride leaving DOWN closes its outage (R51). -/
def closeOutage (i : Nat) (s : State) : State :=
  updRide i (fun r => { r with outages := withOutageClosed (nowSecond s) r.outages }) s

/-! ## Ride states (section 3.2) -/

/-- What the estimator does when a ride enters a state (R48, R73, R78, R79). -/
def estimatorEnters (rate : Nat) (old new : RideState) (r : Ride) : Ride :=
  if new = .opened ∧ old = .closed then reestimate (seedThroughput rate r)
  else if running new then postingRun r
  else r

/-- A change of ride state: reported, then handed on to estimator, kiosk exchange and return lane (R48). -/
def enterState (i : Nat) (new : RideState) (s : State) : State :=
  let old := (rideAt i s).state
  let changed := report .rideState i (twoCodes (rideCode old) (rideCode new)) (updRide i (fun r => { r with state := new }) s)
  let estimated := updRide i (estimatorEnters (nominalRate i changed) old new) changed
  let unheld := if new = .closed then releaseHoldsOn i estimated else estimated
  if new = .opened then testRelease i unheld else unheld

/-- A ride moved to another state, its outage opened or closed first (R44, R45, R47). -/
def moveRide (i : Nat) (new : RideState) (s : State) : State :=
  enterState i new
    (if new = .down then openOutage i s else if (rideAt i s).state = .down then closeOutage i s else s)

/-- The state a RIDESTATE code asks for (Table 1-2). -/
def codeState (code : Nat) : RideState := if code = 1 then .opened else if code = 2 then .down else .held

/-- A RIDESTATE accepted for a ride index (R44 to R46). -/
def takeRideState (i code : Nat) (s : State) : State :=
  if !configured i s then s
  else if (rideAt i s).state = .closed then
    updRide i (fun r => { r with ignored := min Config.maxCount (r.ignored + 1) }) s
  else if (rideAt i s).state = codeState code then s
  else moveRide i (codeState code) s

/-- A ride index closed unless it is CLOSED already (R47). -/
def closeIfOpen (i : Nat) (s : State) : State :=
  if (rideAt i s).state = .closed then s else moveRide i .closed s

/-! ## Flow counting (section 3.4) -/

/-- Q set to a value; a change is handed to the estimator (R56, R57, R59). -/
def setStandby (i v : Nat) (s : State) : State :=
  updRide i (fun r => if r.q = v then r else reestimate { r with q := v }) s

/-- A plausible delta of an entry counter (R56). -/
def takeEntries (i delta : Nat) (s : State) : State :=
  let old := (rideAt i s).q
  let counted := updTotals i (fun t => { t with entries := addTotal t.entries delta }) s
  let moved := setStandby i (min Config.maxOccupancy (old + delta)) counted
  if Config.maxOccupancy < old + delta then report .queueClamp i (old + delta - Config.maxOccupancy) moved else moved

/-- A plausible delta of a boarding counter (R57). -/
def takeBoardings (i delta : Nat) (s : State) : State :=
  let old := (rideAt i s).q
  let counted := updTotals i (fun t => { t with boardings := addTotal t.boardings delta }) s
  let moved := setStandby i (old - delta) counted
  let reported := if old < delta then report .queueClamp i (delta - old) moved else moved
  addBoardings i delta reported

/-- A count's delta, modulo 65536 (R55). -/
def countDelta (new baseline : Nat) : Nat := (new + 65536 - baseline) % 65536

/-- The record's baseline set. -/
def setBaseline (number new : Nat) (s : State) : State :=
  match tblGet s.stations number with
  | some st => putStation number { st with baseline := some new } s
  | none => s

/-- The delta of a count in DAY for a configured ride (R55): nothing, plausible, or a restart. -/
def takeDelta (number : Nat) (role : Role) (i delta new : Nat) (s : State) : State :=
  if delta = 0 then s
  else if delta ≤ 2000 then
    if role = .entryCounter then takeEntries i delta s else takeBoardings i delta s
  else report .counterRestart number new (bump .counterRestarts s)

/-- An accepted COUNT (R54, R55). -/
def takeCount (number : Nat) (st : Station) (new : Nat) (s : State) : State :=
  let based := setBaseline number new s
  match st.baseline, st.binding with
  | some old, some i =>
    if s.device = .day ∧ configured i s then takeDelta number st.role i (countDelta new old) new based else based
  | _, _ => based

/-- An accepted DISPATCH for a ride index (R67). -/
def takeDispatch (i offered filled : Nat) (s : State) : State :=
  if s.device = .day ∧ configured i s then
    let f := min filled offered
    let totalled := updTotals i (fun t => { t with seats := addTotal t.seats f }) s
    if running (rideAt i s).state then
      let counted := if dispatchMerges s.clock.elapsed (rideAt i s) then bump .dispatchMerged totalled else totalled
      updRide i (sampleDispatch (nominalRate i s) s.clock.elapsed f) counted
    else totalled
  else s

/-! ## Configuration (section 3.1) -/

/-- The checks of LOAD_RIDE after the ride index, in their order; the first that fails decides (R38). -/
def rideLoadRefusal (i : Nat) (c : RideCfg) (s : State) : Option MgmtReason :=
  if 15 < c.classNo then some .range
  else if !([5, 10, 15, 20, 30].contains c.windowLength) then some .range
  else if !([1, 5, 10].contains c.displayStep) then some .range
  else if classRate c.classNo s = 0 then some .incomplete
  else if s.device = .day ∧ configured i s ∧ (rideAt i s).state ≠ .closed ∧
      ¬ ((rideCfg (rideAt i s)).classNo = c.classNo ∧ (rideCfg (rideAt i s)).windowLength = c.windowLength) then
    some .wrongState
  else none

/-- The fields of Table 3-1 brought into range; K = 0 forces the pass share to 0 (R39). -/
def clampRideCfg (c : RideCfg) : RideCfg :=
  { c with passShare := if clampTo 0 16 c.batch = 0 then 0 else clampTo 0 50 c.passShare,
           minLead := clampTo 0 120 c.minLead, earlyGrace := clampTo 0 30 c.earlyGrace,
           lateGrace := clampTo 0 60 c.lateGrace, queueBase := clampTo 0 30 c.queueBase,
           threshold := clampTo 1 64 c.threshold, batch := clampTo 0 16 c.batch, spacing := clampTo 0 60 c.spacing,
           burst := clampTo 1 16 c.burst, interval := clampTo 5 300 c.interval }

/-- A position when the stored value differs from the one carried. -/
def adjustedAt (position carried stored : Nat) : List Nat := if carried = stored then [] else [position]

/-- Positions, in Table 10-2's order, of the fields R39 adjusted. -/
def adjustedRideFields (c : RideCfg) : List Nat :=
  let d := clampRideCfg c
  adjustedAt 4 c.passShare d.passShare ++ adjustedAt 5 c.minLead d.minLead ++ adjustedAt 6 c.earlyGrace d.earlyGrace ++
    adjustedAt 7 c.lateGrace d.lateGrace ++ adjustedAt 9 c.queueBase d.queueBase ++
    adjustedAt 10 c.threshold d.threshold ++ adjustedAt 11 c.batch d.batch ++ adjustedAt 12 c.spacing d.spacing ++
    adjustedAt 13 c.burst d.burst ++ adjustedAt 14 c.interval d.interval

/-- The record of a ride that becomes configured (R40, R66), before its estimate is computed. -/
def newlyConfigured (c : RideCfg) (rate : Nat) (noControl stale : Bool) (r : Ride) : Ride :=
  { r with cfg := some c, state := .closed, noControl := noControl, outages := [], q := 0, totals := DayTotals.zero,
           ignored := 0, est := freshEstimate rate stale }

/-- A LOAD_RIDE taken for an unconfigured ride (R40): a ring is built at once in DAY (R84). -/
def configureRide (i : Nat) (c : RideCfg) (s : State) : State :=
  let set :=
    updRide i
      (fun r => recompute (newlyConfigured c (classRate c.classNo s) (controlSilence i s) (counterSilence i s) r)) s
  if s.device = .day then buildRing i set else set

/-- The estimator's part of a changed configuration (R41, R72, R76, R81): T clamped to a new band, the estimate
recomputed when an input changed, then the first posting rule for a new step, a posting run otherwise. -/
def estimatorReconfigured (old new : RideCfg) (rate : Nat) (r : Ride) : Ride :=
  let banded := if new.classNo = old.classNo then r else clampThroughput rate r
  if banded.est.throughput = r.est.throughput ∧ new.displayStep = old.displayStep ∧ new.queueBase = old.queueBase ∧
      new.threshold = old.threshold ∧ new.batch = old.batch then banded
  else
    let recomputed := recompute banded
    if new.displayStep = old.displayStep then postingRun recomputed
    else { recomputed with est := { recomputed.est with posted := candidateOf new.displayStep recomputed.est.rawWait } }

/-- The calendar's part of a changed configuration: a new L rebuilds (R91), a new N or share recomputes (R87). -/
def calendarReconfigured (i : Nat) (old new : RideCfg) (oldRate newRate : Nat) (s : State) : State :=
  if new.windowLength ≠ old.windowLength then rebuildForLength i s
  else if newRate ≠ oldRate ∨ new.passShare ≠ old.passShare then recomputeCapacity i s
  else s

/-- The return lane's part of a changed configuration: a new M or K tests the condition (R155). -/
def laneReconfigured (i : Nat) (old new : RideCfg) (s : State) : State :=
  if new.threshold = old.threshold ∧ new.batch = old.batch then s else testRelease i s

/-- A LOAD_RIDE taken for a configured ride (R40, R41). -/
def reconfigureRide (i : Nat) (old new : RideCfg) (s : State) : State :=
  let replaced := updRide i (fun r => { r with cfg := some new }) s
  let estimated := updRide i (estimatorReconfigured old new (classRate new.classNo s)) replaced
  laneReconfigured i old new
    (calendarReconfigured i old new (classRate old.classNo s) (classRate new.classNo s) estimated)

/-- A taken LOAD_RIDE. -/
def storeRideCfg (i : Nat) (c : RideCfg) (s : State) : State :=
  match (rideAt i s).cfg with
  | none => configureRide i c s
  | some old => reconfigureRide i old c s

/-- A new N handed on to one ride of the class (R65). -/
def classChanged (i : Nat) (s : State) : State :=
  let banded :=
    updRide i
      (fun r =>
        let clamped := clampThroughput (nominalRate i s) r
        if clamped.est.throughput = r.est.throughput then clamped else reestimate clamped)
      s
  recomputeCapacity i banded

/-- A taken LOAD_CLASS: a changed rate is handed on to the configured rides of the class, in order (R65). -/
def storeClassRate (classNo rate : Nat) (s : State) : State :=
  if classRate classNo s = rate then s
  else
    (List.range Config.rideCount).foldl
      (fun t i => if configured i t && (rideCfg (rideAt i t)).classNo == classNo then classChanged i t else t)
      { s with classes := s.classes.set classNo rate }

/-- A taken UNLOAD_RIDE: ride table, estimator, calendar, kiosk exchange, return lane (R184). NO_CONTROL, STALE and
gate silence go on following the station table (R42, R82, R156). -/
def unloadRecord (r : Ride) : Ride :=
  { r with cfg := none, state := .closed, outages := [], q := 0, totals := DayTotals.zero, ignored := 0,
           est := { Estimate.reset with stale := r.est.stale }, ring := [], recent := [],
           lane := { r.lane with occupancy := 0, mergeCounter := 0, outstanding := none } }

/-- What DAY_BEGIN does to a ride's record but its ring (R61, R131, R158). -/
def dayRecord (r : Ride) : Ride :=
  { r with state := .closed, outages := [], totals := DayTotals.zero, ignored := 0, recent := [],
           lane := { r.lane with mergeCounter := 0, outstanding := none } }

end Sys2Proof.Machine
end

