-- ==== Sys2Proof/Machine/ParkClock.lean ====
section
/-! DEFINITION. The park clock (chapter 2): minute events, the second's advance, acceptance of TIME values. -/

namespace Sys2Proof.Machine

/-! ## Minute events (section 2.4) -/

/-- The event of minute `m`, of the run `first` to `last`, handed to the calendar and the pass book (R35, log 10). -/
def minuteEvent (first last m : Nat) (s : State) : State := expirePasses m (calendarMinute first last m s)

/-- The events of a run of `count` minutes from `first`, in increasing order (R32). -/
def minuteRun (first count : Nat) (s : State) : State :=
  (List.range count).foldl (fun t k => minuteEvent first (first + count - 1) (first + k) t) s

/-- Park time has come to lie in minute `new`: events for the minutes above the high mark (R32 to R34). -/
def raiseMinutes (new : Nat) (s : State) : State :=
  match s.clock.highMark with
  | none => s
  | some mark =>
    if mark < new then minuteRun (mark + 1) (new - mark) { s with clock := { s.clock with highMark := some new } }
    else s

/-! ## Reports of the clock -/

/-- A change of clock state is reported (R25, R27). -/
def reportClockState (s : State) : State := report .clockState 0 (twoCodes 0 (clockCode s.clock.state)) s

/-- Park time has arrived at 129599 (R24). -/
def reportSaturation (s : State) : State := report .clockState 0 (twoCodes 1 (clockCode s.clock.state)) s

/-- Park time arrives at 129599 from a lower value or from absence (R24). -/
def saturates (old : Option Nat) (new : Nat) : Bool :=
  new == Config.maxDaySecond && old.all (fun t => decide (t < Config.maxDaySecond))

/-! ## The second's advance (R23, R24) -/

/-- Park time set to a second's advance, with its report before its minute event (log 24). -/
def advanceParkTime (old : Nat) (s : State) : State :=
  let moved := { s with clock := { s.clock with parkTime := some (old + 1) } }
  raiseMinutes ((old + 1) / 60) (if saturates (some old) (old + 1) then reportSaturation moved else moved)

/-- One oscillator second: the elapsed count rises, and present park time with it until it holds. -/
def tickSecond (s : State) : State :=
  if s.clock.elapsed < Config.maxElapsed then
    let risen := { s with clock := { s.clock with elapsed := s.clock.elapsed + 1 } }
    match s.clock.parkTime with
    | none => risen
    | some t => if t < Config.maxDaySecond then advanceParkTime t risen else risen
  else s

/-! ## TIME frames (section 2.3) -/

/-- Accepting a day second (R27, R28, R33): SYNCED, CLOCK_STATE and saturation report before the minute events, in the
order in which R27 names them (log 24). -/
def acceptTime (v : Nat) (s : State) : State :=
  let set :=
    { s with clock := { s.clock with parkTime := some v, syncMark := some s.clock.elapsed, pendingJump := none,
                                     state := .synced, highMark := some (s.clock.highMark.getD (v / 60)) } }
  let synced := if s.clock.state = .synced then set else reportClockState set
  raiseMinutes (v / 60) (if saturates s.clock.parkTime v then reportSaturation synced else synced)

/-- The difference from park time is 30 s or less (R29). -/
def withinStep (v now : Nat) : Bool := decide (v ≤ now + 30 ∧ now ≤ v + 30)

/-- A frame of value `v` at elapsed count `e` confirms the pending jump (R30). -/
def confirmsJump (v e : Nat) (pendingJump : Option (Nat × Nat)) : Bool :=
  match pendingJump with
  | none => false
  | some (v1, e1) => decide (e1 < e ∧ v + e1 ≤ v1 + e + 5 ∧ v1 + e ≤ v + e1 + 5)

/-- A confirmed jump: accepted, and reported (R30, log 9). -/
def acceptJump (v : Nat) (s : State) : State := report .clockJump 0 (v / 60) (acceptTime v s)

/-- A frame not accepted becomes the pending jump (R31). -/
def pendJump (v : Nat) (s : State) : State :=
  { s with clock := { s.clock with pendingJump := some (v, s.clock.elapsed) } }

/-- Table 2-3, its rows in order. -/
def takeTime (v : Nat) (s : State) : State :=
  if s.clock.state = .unset then acceptTime v s
  else if withinStep v (nowSecond s) then acceptTime v s
  else if confirmsJump v s.clock.elapsed s.clock.pendingJump then acceptJump v s
  else pendJump v s

end Sys2Proof.Machine
end

