-- ==== Sys2Proof/Machine/Boards.lean ====
section
/-! DEFINITION. The board composer (chapter 9): what a slot shows, rewriting, composing, refresh deadlines. -/

namespace Sys2Proof.Machine

/-- The board code of a symbol in a symbol set (R161, Table 9-1). -/
def symbolCode (set symbol : Nat) (s : State) : Byte := (s.symbols.getD set []).getD symbol 0

/-- The status symbol of a ride (Table 9-2). -/
def statusSymbol (r : Ride) : Nat :=
  if r.cfg.isNone then 1
  else
    match r.state with
    | .closed => 1
    | .down => 2
    | .held => 3
    | .opened => if r.est.stale then 4 else 0

/-- The wait of a ride: P while it is OPEN or HELD (Table 9-2). -/
def shownWait (r : Ride) : Nat := if r.cfg.isSome && running r.state then r.est.posted else Config.noMinute

/-- The pass symbol of a ride (R165). -/
def passSymbol (i : Nat) (s : State) : Nat :=
  if !configured i s || (rideCfg (rideAt i s)).passShare == 0 || (rideCfg (rideAt i s)).batch == 0 then 7
  else if nextReturn i s = Config.noMinute then 6 else 5

/-- A slot that names a ride, with its next-return value (R164, R165). -/
def rideSlot (set i : Nat) (s : State) : BoardSlot :=
  { status := symbolCode set (statusSymbol (rideAt i s)) s, wait := shownWait (rideAt i s),
    pass := symbolCode set (passSymbol i s) s, next := nextReturn i s }

/-- A number as a two-byte field. -/
def numberBytes (n : Nat) : List Byte := halfBytes (BitVec.ofNat 16 n)

/-- The six bytes of a slot (Table 1-3). -/
def slotBytes (b : BoardSlot) : List Byte := [b.status] ++ numberBytes b.wait ++ [b.pass] ++ numberBytes b.next

/-! ## Rewriting (section 9.3) -/

/-- A slot of a passing frame written from its record slot; the next-return field only under its flag (R163). -/
def writeSlot (set : Nat) (spec : SlotSpec) (sent : List Byte) (s : State) : List Byte :=
  match spec.ride with
  | none => sent
  | some i =>
    if spec.showNext then slotBytes (rideSlot set i s) else (slotBytes (rideSlot set i s)).take 4 ++ sent.drop 4

/-- A frame's slots written from the record's slots, as far as both go (R163). -/
def writeSlots (set : Nat) (specs : List SlotSpec) (sent : List Byte) (s : State) : List Byte :=
  match specs with
  | [] => sent
  | spec :: rest => if sent = [] then [] else writeSlot set spec (sent.take 6) s ++ writeSlots set rest (sent.drop 6) s

/-- The BOARD body's checks: at least one slot, and a body length of 1 + 6k (R162). -/
def boardBodyOk (body : List Byte) : Bool :=
  decide (1 ≤ u8At body 0) && body.length == 1 + 6 * u8At body 0

/-- The rewritten frame: envelope, slot count, body length and padding as they arrived (R162, R163). -/
def rewrite (b : BoardRec) (rx : LineRx) (s : State) : LineRx :=
  { rx with rest := (bodyOf rx).take 1 ++ writeSlots b.symbolSet b.slots ((bodyOf rx).drop 1) s ++
      rx.rest.drop rx.bodyLen.toNat }

/-- The board record whose station a frame is addressed to (R9). -/
def boardOf (station : Nat) (s : State) : Option (Nat × BoardRec) := s.boards.find? (fun e => e.2.station == station)

/-- Replace a board record. -/
def putBoard (index : Nat) (b : BoardRec) (s : State) : State := { s with boards := tblSet s.boards index b }

/-- The record with its refresh deadline one interval from now (R168). -/
def restartRefresh (b : BoardRec) (s : State) : BoardRec := { b with deadline := s.clock.elapsed + b.interval }

/-- A rewritten frame placed; its joining restarts the refresh deadline (R167). -/
def placeRewritten (index : Nat) (b : BoardRec) (f : Frame) (s : State) : State :=
  let placed := placeTransit .field f s
  if transitRoom .field s then putBoard index (restartRefresh b s) placed else placed

/-! ## Self-refresh (section 9.4) -/

/-- A slot of a composed frame (R170). -/
def composedSlot (set : Nat) (s : State) (spec : SlotSpec) : BoardSlot :=
  match spec.ride with
  | none => { status := 0, wait := 0, pass := 0, next := 0 }
  | some i => if spec.showNext then rideSlot set i s else { rideSlot set i s with next := Config.noMinute }

/-- The composed frame of a record (R170). -/
def composedBoard (b : BoardRec) (s : State) : OriginFrame :=
  broadcastFrame b.station (.board (b.slots.map (composedSlot b.symbolSet s))) s

/-- A refresh deadline reached: a frame in READY and DAY, and the deadline restarted in every state (R169). -/
def refreshBoard (index : Nat) (b : BoardRec) (s : State) : State :=
  putBoard index (restartRefresh b s)
    (if s.device = .ready ∨ s.device = .day then placeOrigin .field (composedBoard b s) s else s)

end Sys2Proof.Machine
end

