-- ==== Sys2Proof/WellFormed.lean ====
section
/-! DEFINITION. Which terms of `Instr` are commands of their row. `exec` gives every term a meaning, the ill-formed
ones too: it takes a frame for what its bytes are (log 4). -/

namespace Sys2Proof

/-- The frame is at least the Ethernet minimum long (R1); a shorter one is a FRAME_DISCARD. -/
def longEnough (payloadLength : Nat) : Bool :=
  decide (Config.minFrame ≤ Config.frameOverhead + payloadLength)

/-- A line frame's payload is its eight envelope bytes and `rest`. -/
def LineRx.wf (rx : LineRx) : Bool := longEnough (8 + rx.rest.length)

/-- A MGMT frame's payload is its eight envelope bytes, the command code and `tail`. -/
def MgmtRx.wf (rx : MgmtRx) : Bool := longEnough (9 + rx.tail.length)

/-- Command codes of Table 1-5. -/
def knownCommand (code : Byte) : Bool := decide (1 ≤ code.toNat ∧ code.toNat ≤ 0x19)

/-- The first payload byte is the format byte 03H (Table 1-1). -/
def Frame.ourFormat (f : Frame) : Bool := f.payload.head? == some Config.lineFormat

/-- One check for each row that has one. -/
def Instr.wf : Instr → Bool
  | .frameDiscard _ _ => true
  | .otherTraffic _ f => longEnough f.payload.length && f.ethType != Config.lineType
  | .foreignFrame _ f => longEnough f.payload.length && f.ethType == Config.lineType && !f.ourFormat
  | .forward _ f => longEnough f.payload.length && f.ethType == Config.lineType && f.ourFormat
  | .count rx => rx.wf
  | .dispatch rx => rx.wf
  | .rideState rx => rx.wf
  | .released rx => rx.wf
  | .passReq rx => rx.wf
  | .take rx => rx.wf
  | .drop rx => rx.wf
  | .cancel rx => rx.wf
  | .redeem rx => rx.wf
  | .board rx => rx.wf
  | .time rx => rx.wf
  | .wrongPortMgmt rx => rx.wf && rx.port == .field
  | .unknownCommand code rx => rx.wf && !knownCommand code
  | .identify rx => rx.wf
  | .loadPark rx => rx.wf
  | .loadClass rx => rx.wf
  | .loadStation rx => rx.wf
  | .removeStation rx => rx.wf
  | .loadRide rx => rx.wf
  | .unloadRide rx => rx.wf
  | .loadBoard rx => rx.wf
  | .loadSymbols rx => rx.wf
  | .makeReady rx => rx.wf
  | .dayBegin rx => rx.wf
  | .dayEnd rx => rx.wf
  | .purge rx => rx.wf
  | .openRide rx => rx.wf
  | .closeRide rx => rx.wf
  | .setQueue rx => rx.wf
  | .setMask rx => rx.wf
  | .issueCourtesy rx => rx.wf
  | .cancelPass rx => rx.wf
  | .queryRide rx => rx.wf
  | .queryWindows rx => rx.wf
  | .queryToken rx => rx.wf
  | .queryPasses rx => rx.wf
  | .queryStations rx => rx.wf
  | .readCounters rx => rx.wf
  | .secondTick => true
  | .clockFree => true
  | .clockAdrift => true
  | .silenceExpiry n => decide (1 ≤ n ∧ n ≤ 4094)
  | .holdExpiry n => decide (n < Config.holdPlaces)
  | .releaseTimeout n => decide (n < Config.rideCount)
  | .boardRefresh n => decide (n < Config.boardPlaces)
  | .linkDown _ => true
  | .linkUp _ => true
  | .transmitStart _ => true
  | .transmitDone _ => true
  | .reset _ => true
  | .resetAsserted => true

end Sys2Proof
end

