-- ==== Sys2Proof/Machine/Classifier.lean ====
section
/-! DEFINITION. What a port unit hands on, and the judgment of line frames (section 1.3). -/

namespace Sys2Proof.Machine

/-- The outcome of a command. -/
abbrev Result := Host.Outcome State Fault Refusal

/-- A frame that arrives reaches the classifier: RESET is not held (R22), the link is UP (R21), and the frame is at
least the Ethernet minimum long (R1). -/
def receives (p : Port) (payloadLength : Nat) (s : State) : Bool :=
  !s.resetHeld && (portUnit p s).linkUp && longEnough payloadLength

/-- The effect of an arriving frame; a frame that is not received is lost or discarded without a trace (R1, R22). -/
def onArrival (p : Port) (payloadLength : Nat) (effect : State → State) (s : State) : Result :=
  .next (if receives p payloadLength s then effect s else s)

/-- The four steps of R6: the counter of the first that fails, or the record of the source station. -/
def judge (roles : List Role) (bodyOk : List Byte → Bool) (rx : LineRx) (s : State) : Except Counter Station :=
  if envelopeOk rx then
    match tblGet s.stations (sourceOf rx) with
    | none => .error .unknownStation
    | some st =>
      if roles.contains st.role then if bodyOk (bodyOf rx) then .ok st else .error .malformed
      else .error .roleMismatch
  else .error .malformed

/-- The classifier forwards the frame whatever it holds: in UNCONFIGURED, or on the park port (R5, Table 1-6). -/
def passesThrough (rx : LineRx) (s : State) : Bool := s.device == .unconfigured || rx.port == .park

/-- An observed field frame (R6, R7): supervision first, then its owner; forwarded whether it fails or not. -/
def observe (kind : Byte) (roles : List Role) (bodyOk : List Byte → Bool) (effect : Station → State → State)
    (rx : LineRx) (s : State) : State :=
  if passesThrough rx s then forwardFrom rx.port (lineFrame kind rx) s
  else
    match judge roles bodyOk rx s with
    | .error failure => forwardFrom rx.port (lineFrame kind rx) (bump failure s)
    | .ok st => forwardFrom rx.port (lineFrame kind rx) (effect st (hear (sourceOf rx) st s))

/-- A consumed field frame (R6, R7): a failed one is dropped, and no answer is sent. -/
def consume (kind : Byte) (roles : List Role) (bodyOk : List Byte → Bool) (effect : Station → State → State)
    (rx : LineRx) (s : State) : State :=
  if passesThrough rx s then forwardFrom rx.port (lineFrame kind rx) s
  else
    match judge roles bodyOk rx s with
    | .error failure => bump failure s
    | .ok st => effect st (hear (sourceOf rx) st s)

end Sys2Proof.Machine
end

