-- ==== Sys2Proof/Machine/FieldFrames.lean ====
section
/-! DEFINITION. The observed field frames: COUNT, DISPATCH, RIDESTATE, RELEASED. -/

namespace Sys2Proof.Machine

/-- COUNT (R54): kind 01H, from entry and boarding counters. -/
def arriveCount (rx : LineRx) (s : State) : State :=
  observe 0x01 [.entryCounter, .boardCounter] countBodyOk
    (fun st t => takeCount (sourceOf rx) st (u16At (bodyOf rx) 0) t) rx s

/-- COUNT arrives on a port. -/
def execCount (rx : LineRx) (s : State) : Result := onArrival rx.port (linePayloadLength rx) (arriveCount rx) s

/-- The effect of an accepted DISPATCH on the ride its ride control is bound to (R67). -/
def dispatchEffect (rx : LineRx) (st : Station) (s : State) : State :=
  match st.binding with
  | some i => takeDispatch i (u8At (bodyOf rx) 0) (u8At (bodyOf rx) 1) s
  | none => s

/-- DISPATCH (R67): kind 02H, from ride controls. -/
def arriveDispatch (rx : LineRx) (s : State) : State :=
  observe 0x02 [.rideControl] dispatchBodyOk (dispatchEffect rx) rx s

/-- DISPATCH arrives on a port. -/
def execDispatch (rx : LineRx) (s : State) : Result :=
  onArrival rx.port (linePayloadLength rx) (arriveDispatch rx) s

/-- The effect of an accepted RIDESTATE on the ride its ride control is bound to (R44 to R46). -/
def rideStateEffect (rx : LineRx) (st : Station) (s : State) : State :=
  match st.binding with
  | some i => takeRideState i (u8At (bodyOf rx) 0) s
  | none => s

/-- RIDESTATE (R44): kind 03H, from ride controls. -/
def arriveRideState (rx : LineRx) (s : State) : State :=
  observe 0x03 [.rideControl] rideStateBodyOk (rideStateEffect rx) rx s

/-- RIDESTATE arrives on a port. -/
def execRideState (rx : LineRx) (s : State) : Result :=
  onArrival rx.port (linePayloadLength rx) (arriveRideState rx) s

/-- The effect of an accepted RELEASED: in DAY and CLOSING, for a configured ride (R151, R153, R154). -/
def releasedEffect (rx : LineRx) (st : Station) (s : State) : State :=
  match st.binding with
  | some i =>
    if (s.device = .day ∨ s.device = .closing) ∧ configured i s then takeReleased i (u8At (bodyOf rx) 0) s else s
  | none => s

/-- RELEASED (R151): kind 04H, from merge gates. -/
def arriveReleased (rx : LineRx) (s : State) : State :=
  observe 0x04 [.mergeGate] releasedBodyOk (releasedEffect rx) rx s

/-- RELEASED arrives on a port. -/
def execReleased (rx : LineRx) (s : State) : Result :=
  onArrival rx.port (linePayloadLength rx) (arriveReleased rx) s

end Sys2Proof.Machine
end

