-- ==== Sys2Proof/Machine/ParkFrames.lean ====
section
/-! DEFINITION. The park-side frames: BOARD and TIME. -/

namespace Sys2Proof.Machine

/-- The classifier forwards a park-side kind unchanged: in UNCONFIGURED, or on the field port (R5, Table 1-6). -/
def parkPassesThrough (rx : LineRx) (s : State) : Bool := s.device == .unconfigured || rx.port == .field

/-- A BOARD frame for a board record: rewritten, or left as it is when malformed (R162, R163, R167). -/
def takeBoard (index : Nat) (b : BoardRec) (rx : LineRx) (s : State) : State :=
  if envelopeOk rx && boardBodyOk (bodyOf rx) then
    placeRewritten index b (lineFrame 0x30 (rewrite b rx s)) s
  else forwardFrom rx.port (lineFrame 0x30 rx) (bump .malformed s)

/-- BOARD: kind 30H (R9, R162). -/
def arriveBoard (rx : LineRx) (s : State) : State :=
  if parkPassesThrough rx s then forwardFrom rx.port (lineFrame 0x30 rx) s
  else
    match boardOf (destOf rx) s with
    | none => forwardFrom rx.port (lineFrame 0x30 rx) s
    | some (index, b) => takeBoard index b rx s

/-- BOARD arrives on a port. -/
def execBoard (rx : LineRx) (s : State) : Result := onArrival rx.port (linePayloadLength rx) (arriveBoard rx) s

/-- TIME: kind 31H, observed on the park port whatever its source (R9, R29). -/
def arriveTime (rx : LineRx) (s : State) : State :=
  if parkPassesThrough rx s then forwardFrom rx.port (lineFrame 0x31 rx) s
  else if envelopeOk rx && timeBodyOk (bodyOf rx) then
    forwardFrom rx.port (lineFrame 0x31 rx) (takeTime (u32At (bodyOf rx) 0) s)
  else forwardFrom rx.port (lineFrame 0x31 rx) (bump .malformed s)

/-- TIME arrives on a port. -/
def execTime (rx : LineRx) (s : State) : Result := onArrival rx.port (linePayloadLength rx) (arriveTime rx) s

end Sys2Proof.Machine
end

