-- ==== Sys2Proof/Machine/Management.lean ====
section
/-! DEFINITION. The management commands that change state (chapter 10, and the owners' rules it names). A command is
run on its parameter bytes and answers with a reply. -/

namespace Sys2Proof.Machine

/-- What a command does: parameter bytes and state to state and reply. -/
abbrev Command := List Byte → State → State × Reply

/-- A MGMT frame of a command code arrives (R8): forwarded to another station, dropped and counted on the wrong port or
when malformed, otherwise run and answered with one MGMTANS in the park origin queue (R174). -/
def arriveMgmt (code : Byte) (run : Command) (rx : MgmtRx) (s : State) : State :=
  let line := mgmtLine code rx
  if destOf line ≠ ownStation s then forwardFrom rx.port (lineFrame 0x40 line) s
  else
    match rx.port with
    | .field => bump .wrongPortMgmt s
    | .park =>
      if envelopeOk line && decide (3 ≤ rx.bodyLen.toNat) then
        let out := run ((bodyOf line).drop 3) s
        placeOrigin .park (answerFrame line (.mgmtAnswer code.toNat (u16At (bodyOf line) 1) out.2) out.1) out.1
      else bump .malformed s

/-- The step of a MGMT row. -/
def mgmtStep (code : Byte) (run : Command) (rx : MgmtRx) (s : State) : Result :=
  onArrival rx.port (linePayloadLength (mgmtLine code rx)) (arriveMgmt code run rx) s

/-- Fewer parameter bytes than required are refused RANGE (R174). -/
def withBytes (required : Nat) (run : Command) : Command :=
  fun params s => if params.length < required then (s, refusedFor .range) else run params s

/-- A device state entered, with its report (R173). -/
def enterDevice (new : DeviceState) (s : State) : State :=
  report .dayState 0 (twoCodes (deviceCode s.device) (deviceCode new)) { s with device := new }

/-! ## Unknown command -/

/-- R174: refused UNKNOWN_COMMAND. -/
def runUnknown : Command := fun _ s => (s, refusedFor .unknownCommand)

/-! ## IDENTIFY (R176) -/

/-- The data of IDENTIFY. -/
def identityOf (s : State) : IdentifyData :=
  { ownStation := ownStation s, device := s.device, clock := s.clock.state, daySecond := s.clock.parkTime,
    elapsed := s.clock.elapsed, stations := s.stations.length,
    rides := (s.rides.filter (fun r => r.cfg.isSome)).length, boards := s.boards.length,
    livePasses := s.passes.length, holds := s.holds.length, purgeCursor := s.purgeCursor }

/-- IDENTIFY changes nothing. -/
def runIdentify : Command := fun _ s => (s, doneWith (.identity (identityOf s)))

/-! ## LOAD_PARK (R177): token limit (1), pad byte (1), hold time (1) -/

/-- The settings LOAD_PARK stores. -/
def parkSettings (params : List Byte) : Settings :=
  { tokenLimit := clampTo 1 4 (u8At params 0), pad := params.getD 1 0, holdTime := clampTo 5 60 (u8At params 2) }

/-- LOAD_PARK is taken in UNCONFIGURED and READY. -/
def runLoadPark : Command :=
  withBytes 3 fun params s =>
    if s.device = .unconfigured ∨ s.device = .ready then
      ({ s with settings := parkSettings params },
       carriedOut (clampedAt 1 1 4 (u8At params 0) ++ clampedAt 3 5 60 (u8At params 2))
         (.parkSettings (parkSettings params)))
    else (s, refusedFor .wrongState)

/-! ## LOAD_CLASS (R64): class number (1), rate (2) -/

/-- A rate as stored. -/
def storedRate (rate : Nat) : Nat := if rate = 0 then 0 else clampTo 60 6000 rate

/-- A configured ride of the class is OPEN, HELD or DOWN. -/
def classInUse (classNo : Nat) (s : State) : Bool :=
  s.rides.any (fun r => r.cfg.any (fun c => c.classNo == classNo) && r.state != .closed)

/-- LOAD_CLASS. -/
def runLoadClass : Command :=
  withBytes 3 fun params s =>
    let classNo := u8At params 0
    let rate := u16At params 1
    if 15 < classNo then (s, refusedFor .range)
    else if s.device = .day ∧ classInUse classNo s then (s, refusedFor .wrongState)
    else
      (storeClassRate classNo (storedRate rate) s,
       carriedOut (adjustedAt 2 rate (storedRate rate)) (.classRate (storedRate rate)))

/-! ## LOAD_STATION (R10, R11): station number (2), role (1), binding (1), silence window (2) -/

/-- A number no station record can have: outside 1 to 4094, or the own station number (section 1.4, R10, log 16). -/
def badStationNumber (number : Nat) (s : State) : Bool :=
  decide (number = 0 ∨ 4094 < number ∨ number = ownStation s)

/-- The record LOAD_STATION stores. -/
def loadedStation (role : Role) (binding window : Nat) : Station :=
  { role := role, binding := loadBinding role binding, window := clampWindow role window, supervision := .unheard,
    deadline := none, baseline := none }

/-- A record stored, created or replacing (R10, R11). The ride a replaced SILENT one was bound to is recomputed before
the new record's own binding is counted in, so a RELEASE sent at that recomputation does not go to the new record
(log 26). The ride the new record is bound to keeps its conditions, since an UNHEARD record counts in none (R17). -/
def storeStation (number : Nat) (st : Station) (s : State) : State :=
  putStation number st (leaveTable (tblGet s.stations number) (putStation number { st with binding := none } s))

/-- LOAD_STATION. -/
def runLoadStation : Command :=
  withBytes 6 fun params s =>
    let number := u16At params 0
    let window := u16At params 4
    if badStationNumber number s then (s, refusedFor .range)
    else
      match roleOfCode (u8At params 2) with
      | none => (s, refusedFor .range)
      | some role =>
        if bindingOutOfRange role (u8At params 3) then (s, refusedFor .range)
        else if (tblGet s.stations number).isNone ∧ Config.stationPlaces ≤ s.stations.length then
          (s, refusedFor .full)
        else
          (storeStation number (loadedStation role (u8At params 3) window) s,
           carriedOut (adjustedAt 4 window (clampWindow role window)) .empty)

/-! ## REMOVE_STATION (R12): station number (2) -/

/-- A record freed; a SILENT one has its ride recomputed. -/
def removeStation (number : Nat) (s : State) : State :=
  leaveTable (tblGet s.stations number) { s with stations := tblErase s.stations number }

/-- REMOVE_STATION. -/
def runRemoveStation : Command :=
  withBytes 2 fun params s =>
    if (tblGet s.stations (u16At params 0)).isSome then (removeStation (u16At params 0) s, doneWith .empty)
    else (s, refusedFor .notFound)

/-! ## LOAD_RIDE (R38 to R41) -/

/-- The fields a LOAD_RIDE carries, after the ride index (Table 10-2). -/
def carriedRideCfg (params : List Byte) : RideCfg :=
  { classNo := u8At params 1, windowLength := u8At params 2, passShare := u8At params 3, minLead := u8At params 4,
    earlyGrace := u8At params 5, lateGrace := u8At params 6, displayStep := u8At params 7, queueBase := u8At params 8,
    threshold := u8At params 9, batch := u8At params 10, spacing := u8At params 11, burst := u8At params 12,
    interval := u16At params 13 }

/-- LOAD_RIDE. -/
def runLoadRide : Command :=
  withBytes 15 fun params s =>
    let i := u8At params 0
    if 47 < i then (s, refusedFor .range)
    else
      match rideLoadRefusal i (carriedRideCfg params) s with
      | some reason => (s, refusedFor reason)
      | none =>
        (storeRideCfg i (clampRideCfg (carriedRideCfg params)) s,
         carriedOut (adjustedRideFields (carriedRideCfg params)) .empty)

/-! ## Commands that name a ride -/

/-- An index above 47 is refused RANGE and an unconfigured ride NOT_FOUND (R43, R47, R59, R102, R184, R185). -/
def onRide (run : Nat → Command) : Command :=
  withBytes 1 fun params s =>
    let i := u8At params 0
    if 47 < i then (s, refusedFor .range)
    else if !configured i s then (s, refusedFor .notFound)
    else run i params s

/-- UNLOAD_RIDE (R184): ride index (1). -/
def runUnloadRide : Command :=
  onRide fun i _ s =>
    if (rideAt i s).state ≠ .closed ∨ 0 < livePassesOn i s then (s, refusedFor .wrongState)
    else (updRide i unloadRecord s, doneWith .empty)

/-- OPEN_RIDE (R43): ride index (1). -/
def runOpenRide : Command :=
  onRide fun i _ s =>
    if s.device ≠ .day ∨ (rideAt i s).state ≠ .closed then (s, refusedFor .wrongState)
    else if nominalRate i s = 0 then (s, refusedFor .incomplete)
    else (moveRide i .opened s, doneWith .empty)

/-- CLOSE_RIDE (R47): ride index (1). -/
def runCloseRide : Command := onRide fun i _ s => (closeIfOpen i s, doneWith .empty)

/-- SET_QUEUE (R59, R147): ride index (1), standby value (2), return value (2); 0FFFFH leaves a value as it is. Of two
changes of one command the estimator takes that of Q first (R76, log 30). -/
def runSetQueue : Command :=
  withBytes 5 <| onRide fun i params s =>
    let standby := u16At params 1
    let returned := u16At params 3
    let first := if standby = Config.noMinute then s else setStandby i (min Config.maxOccupancy standby) s
    let second := if returned = Config.noMinute then first else setReturn i (min Config.maxOccupancy returned) first
    (second,
     carriedOut
       ((if standby = Config.noMinute then [] else clampedAt 2 0 Config.maxOccupancy standby) ++
        (if returned = Config.noMinute then [] else clampedAt 3 0 Config.maxOccupancy returned)) .empty)

/-! ## LOAD_BOARD (R159, R160), LOAD_SYMBOLS (R161) -/

/-- A slot entry: ride 0 to 47 or 0FFH for untouched, and the show next return flag (R159). -/
def slotOf (ride flag : Nat) : SlotSpec :=
  { ride := if ride = 0xFF then none else some ride, showNext := flag != 0 }

/-- The slot entries after the fixed parameters of LOAD_BOARD. -/
def slotEntries (count : Nat) (params : List Byte) : List (Nat × Nat) :=
  (List.range count).map (fun k => (u8At params (7 + 2 * k), u8At params (8 + 2 * k)))

/-- A slot entry's ride value is neither 0 to 47 nor 0FFH. -/
def badSlotEntry (e : Nat × Nat) : Bool := decide (47 < e.1 ∧ e.1 ≠ 0xFF)

/-- The board station of a record at another index. -/
def boardStationTaken (index station : Nat) (s : State) : Bool :=
  s.boards.any (fun e => e.1 != index && e.2.station == station)

/-- The record LOAD_BOARD stores. -/
def loadedBoard (params : List Byte) (s : State) : BoardRec :=
  { station := u16At params 1, symbolSet := u8At params 3, interval := clampTo 10 600 (u16At params 4),
    deadline := s.clock.elapsed + clampTo 10 600 (u16At params 4),
    slots := (slotEntries (u8At params 6) params).map (fun e => slotOf e.1 e.2) }

/-- A LOAD_BOARD with slots (R159). -/
def loadBoardRecord (params : List Byte) (s : State) : State × Reply :=
  let index := u8At params 0
  let station := u16At params 1
  if badStationNumber station s ∨ boardStationTaken index station s then (s, refusedFor .range)
  else if 7 < u8At params 3 then (s, refusedFor .range)
  else if Config.boardSlots < u8At params 6 then (s, refusedFor .range)
  else if (slotEntries (u8At params 6) params).any badSlotEntry then (s, refusedFor .range)
  else
    (putBoard index (loadedBoard params s) s, carriedOut (clampedAt 4 10 600 (u16At params 4)) .empty)

/-- A LOAD_BOARD without slots removes the record (R160). -/
def removeBoardRecord (index : Nat) (s : State) : State × Reply :=
  if (tblGet s.boards index).isSome then ({ s with boards := tblErase s.boards index }, doneWith .empty)
  else (s, refusedFor .notFound)

/-- LOAD_BOARD: board index (1), board station (2), symbol set (1), refresh interval (2), slot count (1), then two
bytes for each slot counted. -/
def runLoadBoard : Command :=
  withBytes 7 fun params s =>
    if params.length < 7 + 2 * u8At params 6 then (s, refusedFor .range)
    else if 63 < u8At params 0 then (s, refusedFor .range)
    else if u8At params 6 = 0 then removeBoardRecord (u8At params 0) s
    else loadBoardRecord params s

/-- LOAD_SYMBOLS: set number (1), eight codes (1 each). -/
def runLoadSymbols : Command :=
  withBytes 9 fun params s =>
    if 7 < u8At params 0 then (s, refusedFor .range)
    else ({ s with symbols := s.symbols.set (u8At params 0) ((params.drop 1).take 8) }, doneWith .empty)

/-! ## The day's commands (section 10.4) -/

/-- MAKE_READY (R178). -/
def runMakeReady : Command := fun _ s =>
  if s.device ≠ .unconfigured then (s, refusedFor .wrongState)
  else if s.stations = [] then (s, refusedFor .incomplete)
  else (enterDevice .ready s, doneWith .empty)

/-- The ring of each configured ride, in order (R179, step 2). -/
def buildRings (s : State) : State :=
  (List.range Config.rideCount).foldl (fun t i => if configured i t then buildRing i t else t) s

/-- Configured rides. -/
def configuredCount (s : State) : Nat := ((List.range Config.rideCount).filter (fun i => configured i s)).length

/-- The five effects of a taken DAY_BEGIN (R179). -/
def beginDay (s : State) : State :=
  enterDevice .day (buildRings { s with rides := s.rides.map dayRecord, expiredIds := [] })

/-- DAY_BEGIN (R179). -/
def runDayBegin : Command := fun _ s =>
  if s.device ≠ .ready then (s, refusedFor .wrongState)
  else if s.clock.state = .unset then (s, refusedFor .incomplete)
  else (beginDay s, doneWith (.ringsBuilt (configuredCount s)))

/-- Rides that are OPEN, HELD or DOWN. -/
def openRides (s : State) : List Nat :=
  (List.range Config.rideCount).filter (fun i => (rideAt i s).state != .closed)

/-- The effects of a taken DAY_END (R180). -/
def endDay (s : State) : State :=
  enterDevice .closing { (openRides s).foldl (fun t i => closeIfOpen i t) s with purgeCursor := some 0 }

/-- DAY_END (R180). -/
def runDayEnd : Command := fun _ s =>
  if s.device ≠ .day then (s, refusedFor .wrongState)
  else (endDay s, doneWith (.dayEnded (openRides s).length (endDay s).passes.length))

/-- The live passes a PURGE from `cursor` frees (R181). -/
def purgeBatchOf (cursor : Nat) (s : State) : List (Nat × Pass) :=
  s.passes.filter (fun e => decide (cursor ≤ e.1 ∧ e.1 < min (cursor + Config.purgeBatch) Config.passPlaces))

/-- The passes freed without PASSLOG, capacity or counters (R181). -/
def purgeFreed (cursor : Nat) (s : State) : State :=
  (purgeBatchOf cursor s).foldl (fun t e => freePass e.1 e.2 t) s

/-- The index after the last entry scanned (R181): the scan stops with the last live pass of the table. -/
def purgeCursorAfter (cursor : Nat) (s : State) : Nat :=
  if (purgeFreed cursor s).passes = [] then
    match (purgeBatchOf cursor s).getLast? with
    | some e => e.1 + 1
    | none => cursor
  else min (cursor + Config.purgeBatch) Config.passPlaces

/-- A completing PURGE: rings and purge cursor removed, READY entered (R182). -/
def completePurge (s : State) : State :=
  enterDevice .ready { s with rides := s.rides.map (fun r => { r with ring := [] }), purgeCursor := none }

/-- PURGE (R181, R182). -/
def runPurge : Command := fun _ s =>
  if s.device ≠ .closing then (s, refusedFor .wrongState)
  else
    let cursor := s.purgeCursor.getD 0
    let freed := purgeFreed cursor s
    let data := AnswerData.purged (purgeCursorAfter cursor s) (purgeBatchOf cursor s).length freed.passes.length
    if freed.passes = [] then (completePurge freed, doneWith data)
    else ({ freed with purgeCursor := some (purgeCursorAfter cursor s) }, inPartWith data)

/-! ## SET_MASK (R190), ISSUE_COURTESY (R118, R119), CANCEL_PASS (R117) -/

/-- SET_MASK: level (1). -/
def runSetMask : Command :=
  withBytes 1 fun params s =>
    if 15 < u8At params 0 then (s, refusedFor .range)
    else ({ s with reportMask := u8At params 0 }, doneWith (.mask (u8At params 0)))

/-- A token-length field and its token are there (R174). -/
def tokenBytesThere (lengthAt : Nat) (params : List Byte) : Bool :=
  decide (lengthAt + 1 + u8At params lengthAt ≤ params.length)

/-- The last four checks of R118, for a ride that is configured and has a return lane. -/
def issueFor (token : List Byte) (i party : Nat) (s : State) : State × Reply :=
  match passOn token i s with
  | some (_, p) => (s, refusedWith .wrongState .holdsPass (p.start.getD Config.noMinute))
  | none =>
    match holdOn token i s with
    | some (_, h) => (s, refusedWith .wrongState .holdsPass h.start)
    | none =>
      if atCourtesyLimit token s then (s, refusedWith .full .limit 0)
      else if freeEntries s ≤ s.holds.length then
        (report .bookFull i (freeEntries s) s, refusedWith .full .bookFull 0)
      else (createCourtesy token i party s, doneWith (.courtesyIndex (freeEntry s)))

/-- ISSUE_COURTESY: ride index (1), party size (1), token length (1), token. -/
def runIssueCourtesy : Command :=
  withBytes 3 fun params s =>
    let i := u8At params 0
    let party := u8At params 1
    if !tokenBytesThere 2 params then (s, refusedFor .range)
    else if s.device ≠ .day then (s, refusedFor .wrongState)
    else if 47 < i then (s, refusedFor .range)
    else if party = 0 ∨ 8 < party then (s, refusedFor .range)
    else if badToken s.settings.pad (tokenAt 2 params) then (s, refusedWith .range .badToken 0)
    else if !configured i s then (s, refusedFor .notFound)
    else if (rideCfg (rideAt i s)).batch = 0 then (s, refusedWith .wrongState .noPasses 0)
    else issueFor (normalizeToken s.settings.pad (tokenAt 2 params)) i party s

/-- CANCEL_PASS: pass index (2). -/
def runCancelPass : Command :=
  withBytes 2 fun params s =>
    let k := u16At params 0
    if Config.passPlaces ≤ k then (s, refusedFor .range)
    else
      match tblGet s.passes k with
      | none => (s, refusedFor .notFound)
      | some p =>
        (cancelLive k p s,
         doneWith (.cancelled p.ride (p.start.getD Config.noMinute) p.party p.admitted (returnedFor p s)))

/-! ## The rows -/

/-- IDENTIFY, command code 01H. -/
def execIdentify (rx : MgmtRx) (s : State) : Result := mgmtStep 0x01 runIdentify rx s
/-- LOAD_PARK, command code 02H. -/
def execLoadPark (rx : MgmtRx) (s : State) : Result := mgmtStep 0x02 runLoadPark rx s
/-- LOAD_CLASS, command code 03H. -/
def execLoadClass (rx : MgmtRx) (s : State) : Result := mgmtStep 0x03 runLoadClass rx s
/-- LOAD_STATION, command code 04H. -/
def execLoadStation (rx : MgmtRx) (s : State) : Result := mgmtStep 0x04 runLoadStation rx s
/-- REMOVE_STATION, command code 05H. -/
def execRemoveStation (rx : MgmtRx) (s : State) : Result := mgmtStep 0x05 runRemoveStation rx s
/-- LOAD_RIDE, command code 06H. -/
def execLoadRide (rx : MgmtRx) (s : State) : Result := mgmtStep 0x06 runLoadRide rx s
/-- UNLOAD_RIDE, command code 07H. -/
def execUnloadRide (rx : MgmtRx) (s : State) : Result := mgmtStep 0x07 runUnloadRide rx s
/-- LOAD_BOARD, command code 08H. -/
def execLoadBoard (rx : MgmtRx) (s : State) : Result := mgmtStep 0x08 runLoadBoard rx s
/-- LOAD_SYMBOLS, command code 09H. -/
def execLoadSymbols (rx : MgmtRx) (s : State) : Result := mgmtStep 0x09 runLoadSymbols rx s
/-- MAKE_READY, command code 0AH. -/
def execMakeReady (rx : MgmtRx) (s : State) : Result := mgmtStep 0x0A runMakeReady rx s
/-- DAY_BEGIN, command code 0BH. -/
def execDayBegin (rx : MgmtRx) (s : State) : Result := mgmtStep 0x0B runDayBegin rx s
/-- DAY_END, command code 0CH. -/
def execDayEnd (rx : MgmtRx) (s : State) : Result := mgmtStep 0x0C runDayEnd rx s
/-- PURGE, command code 0DH. -/
def execPurge (rx : MgmtRx) (s : State) : Result := mgmtStep 0x0D runPurge rx s
/-- OPEN_RIDE, command code 0EH. -/
def execOpenRide (rx : MgmtRx) (s : State) : Result := mgmtStep 0x0E runOpenRide rx s
/-- CLOSE_RIDE, command code 0FH. -/
def execCloseRide (rx : MgmtRx) (s : State) : Result := mgmtStep 0x0F runCloseRide rx s
/-- SET_QUEUE, command code 10H. -/
def execSetQueue (rx : MgmtRx) (s : State) : Result := mgmtStep 0x10 runSetQueue rx s
/-- SET_MASK, command code 11H. -/
def execSetMask (rx : MgmtRx) (s : State) : Result := mgmtStep 0x11 runSetMask rx s
/-- ISSUE_COURTESY, command code 12H. -/
def execIssueCourtesy (rx : MgmtRx) (s : State) : Result := mgmtStep 0x12 runIssueCourtesy rx s
/-- CANCEL_PASS, command code 13H. -/
def execCancelPass (rx : MgmtRx) (s : State) : Result := mgmtStep 0x13 runCancelPass rx s

end Sys2Proof.Machine
end

