-- ==== Sys2Proof/Machine/Queries.lean ====
section
/-! DEFINITION. The management queries and READ_COUNTERS (sections 10.5, 10.6, 11.3). -/

namespace Sys2Proof.Machine

/-! ## QUERY_RIDE (R185) -/

/-- The data of QUERY_RIDE. -/
def rideDataOf (i : Nat) (s : State) : RideData :=
  let r := rideAt i s
  { cfg := rideCfg r, state := r.state, noControl := r.noControl, outages := r.outages, q := r.q, totals := r.totals,
    ignored := r.ignored, throughput := r.est.throughput, standbyRate := r.est.standbyRate, rawWait := r.est.rawWait,
    posted := r.est.posted, stale := r.est.stale, mark := r.est.mark, carry := r.est.carry,
    nextReturn := nextReturn i s, holds := holdsOn i s,
    recentOffers := (recentWithin (rideCfg r).interval s.clock.elapsed r.recent).length,
    livePasses := livePassesOn i s, occupancy := r.lane.occupancy, mergeCounter := r.lane.mergeCounter,
    releaseBatch := (r.lane.outstanding.map (fun o => o.batch)).getD 0,
    releaseSeconds := (r.lane.outstanding.map (fun o => o.deadline - s.clock.elapsed)).getD 0 }

/-- QUERY_RIDE: ride index (1). -/
def runQueryRide : Command := onRide fun i _ s => (s, doneWith (.ride (rideDataOf i s)))

/-! ## QUERY_WINDOWS (R102) -/

/-- QUERY_WINDOWS: ride index (1). -/
def runQueryWindows : Command :=
  onRide fun i _ s => (s, doneWith (.windows (lengthOf i s) (rideAt i s).ring))

/-! ## QUERY_TOKEN (R121) -/

/-- The data of QUERY_TOKEN: hold count, and the passes in grant order. -/
def tokenDataOf (token : List Byte) (s : State) : AnswerData :=
  .token ((tokenRec token s).map (fun t => t.holds) |>.getD 0)
    ((tokenPasses token s).map (fun e => passEntry e.1 e.2 s))

/-- QUERY_TOKEN: token length (1), token. -/
def runQueryToken : Command :=
  withBytes 1 fun params s =>
    if !tokenBytesThere 0 params then (s, refusedFor .range)
    else if badToken s.settings.pad (tokenAt 0 params) then (s, refusedFor .range)
    else (s, doneWith (tokenDataOf (normalizeToken s.settings.pad (tokenAt 0 params)) s))

/-! ## QUERY_PASSES (R186) -/

/-- The live passes of a ride at indices at or above a cursor. -/
def passesFrom (i cursor : Nat) (s : State) : List (Nat × Pass) :=
  s.passes.filter (fun e => e.2.ride == i && decide (cursor ≤ e.1))

/-- The index after the last of a full batch, when more lie beyond it. -/
def nextCursor {α : Type} (batch : Nat) (found : List (Nat × α)) : Option Nat :=
  if batch < found.length then (found.take batch).getLast?.map (fun e => e.1 + 1) else none

/-- DONE, or PARTIAL when a next cursor is given (R175). -/
def inParts (next : Option Nat) (data : AnswerData) : Reply := if next.isSome then inPartWith data else doneWith data

/-- The data of QUERY_PASSES. -/
def passesDataOf (i cursor : Nat) (s : State) : AnswerData :=
  .passes i (freeEntries s)
    (((passesFrom i cursor s).take Config.queryPassBatch).map (fun e => (passEntry e.1 e.2 s, e.2.token)))
    (nextCursor Config.queryPassBatch (passesFrom i cursor s))

/-- QUERY_PASSES: ride index (1), cursor (2). -/
def runQueryPasses : Command :=
  withBytes 3 fun params s =>
    let i := u8At params 0
    let cursor := u16At params 1
    if 47 < i then (s, refusedFor .range)
    else if 8191 < cursor then (s, refusedFor .range)
    else if !configured i s then (s, refusedFor .notFound)
    else (s, inParts (nextCursor Config.queryPassBatch (passesFrom i cursor s)) (passesDataOf i cursor s))

/-! ## QUERY_STATIONS (R187) -/

/-- A record of a QUERY_STATIONS answer. -/
def stationEntry (number : Nat) (st : Station) (s : State) : StationEntry :=
  { number := number, role := st.role, binding := st.binding, window := st.window, supervision := st.supervision,
    remaining := (st.deadline.map (fun d => d - s.clock.elapsed)).getD 0, baseline := st.baseline }

/-- The station records at or above a cursor. -/
def stationsFrom (cursor : Nat) (s : State) : List (Nat × Station) :=
  s.stations.filter (fun e => decide (cursor ≤ e.1))

/-- The data of QUERY_STATIONS. -/
def stationsDataOf (cursor : Nat) (s : State) : AnswerData :=
  .stations s.stations.length
    (((stationsFrom cursor s).take Config.queryStationBatch).map (fun e => stationEntry e.1 e.2 s))
    (nextCursor Config.queryStationBatch (stationsFrom cursor s))

/-- QUERY_STATIONS: cursor (2). -/
def runQueryStations : Command :=
  withBytes 2 fun params s =>
    let cursor := u16At params 0
    if 4095 < cursor then (s, refusedFor .range)
    else (s, inParts (nextCursor Config.queryStationBatch (stationsFrom cursor s)) (stationsDataOf cursor s))

/-! ## READ_COUNTERS (R195) -/

/-- READ_COUNTERS: clear (1); the counters are read, then cleared if asked. -/
def runReadCounters : Command :=
  withBytes 1 fun params s =>
    ((if u8At params 0 = 0 then s else { s with counters := Counters.zero }),
     doneWith (.counters s.counters (freeEntries s)))

/-! ## The rows -/

/-- QUERY_RIDE, command code 14H. -/
def execQueryRide (rx : MgmtRx) (s : State) : Result := mgmtStep 0x14 runQueryRide rx s
/-- QUERY_WINDOWS, command code 15H. -/
def execQueryWindows (rx : MgmtRx) (s : State) : Result := mgmtStep 0x15 runQueryWindows rx s
/-- QUERY_TOKEN, command code 16H. -/
def execQueryToken (rx : MgmtRx) (s : State) : Result := mgmtStep 0x16 runQueryToken rx s
/-- QUERY_PASSES, command code 17H. -/
def execQueryPasses (rx : MgmtRx) (s : State) : Result := mgmtStep 0x17 runQueryPasses rx s
/-- QUERY_STATIONS, command code 18H. -/
def execQueryStations (rx : MgmtRx) (s : State) : Result := mgmtStep 0x18 runQueryStations rx s
/-- READ_COUNTERS, command code 19H. -/
def execReadCounters (rx : MgmtRx) (s : State) : Result := mgmtStep 0x19 runReadCounters rx s

end Sys2Proof.Machine
end

