-- ==== Sys2Proof/Machine/Requests.lean ====
section
/-! DEFINITION. The consumed field frames: PASSREQ, TAKE, DROP, CANCEL from kiosks, REDEEM from return scanners. -/

namespace Sys2Proof.Machine

/-- The token of a request, normalized (R103). -/
def requestToken (lengthAt : Nat) (rx : LineRx) (s : State) : List Byte :=
  normalizeToken s.settings.pad (tokenAt lengthAt (bodyOf rx))

/-- The token of a request is bad (R103). -/
def requestTokenBad (lengthAt : Nat) (rx : LineRx) (s : State) : Bool :=
  badToken s.settings.pad (tokenAt lengthAt (bodyOf rx))

/-- The request tag, the first body field of every request (Table 1-2). -/
def requestTag (rx : LineRx) : Nat := u16At (bodyOf rx) 0

/-! ## PASSREQ (section 7.2) -/

/-- Check 5: the ride state (Table 7-1). -/
def rideStateRefusal : RideState → Option RefuseReason
  | .closed => some .rideClosed
  | .down => some .rideDown
  | .held => some .rideHeld
  | .opened => none

/-- Checks 1 to 8 of Table 7-1, all refused with extra 0. -/
def passReqRefusal (i party : Nat) (tokenBad : Bool) (s : State) : Option RefuseReason :=
  if s.device ≠ .day then some .dayClosed
  else if tokenBad then some .badToken
  else if party = 0 ∨ 8 < party then some .badParty
  else if !configured i s then some .unknownRide
  else if (rideStateRefusal (rideAt i s).state).isSome then rideStateRefusal (rideAt i s).state
  else if (rideAt i s).noControl then some .noControl
  else if (rideCfg (rideAt i s)).passShare = 0 then some .noPasses
  else if s.clock.state = .adrift then some .clock
  else none

/-- The not-before minute of a PASSREQ: 0FFFFH is absent (R97). -/
def notBeforeOf (rx : LineRx) : Option Nat :=
  if u16At (bodyOf rx) 4 = Config.noMinute then none else some (u16At (bodyOf rx) 4)

/-- A request that repeats the hold's own PASSREQ (R126). -/
def repeatsHold (rx : LineRx) (party : Nat) (h : Hold) : Bool :=
  h.kiosk == sourceOf rx && h.tag == requestTag rx && h.party == party

/-- The hold's OFFER sent again; nothing else changes (R126). -/
def repeatOffer (rx : LineRx) (h : Hold) (s : State) : State :=
  answerField rx
    (.offer (requestTag rx) h.id h.ride h.start (lengthOf h.ride s) (max 1 (h.deadline - s.clock.elapsed))) s

/-- The hold a served PASSREQ makes (R123, R129). -/
def offeredHold (rx : LineRx) (token : List Byte) (i party : Nat) (w : Window) (s : State) : Hold :=
  { id := drawnId s, token := token, ride := i, start := w.start, party := party, kiosk := sourceOf rx,
    tag := requestTag rx, deadline := s.clock.elapsed + s.settings.holdTime }

/-- A served PASSREQ: room reserved, then the four steps of R129. `recent` is the list after check 13's removals. -/
def serveOffer (rx : LineRx) (token : List Byte) (i party : Nat) (recent : List Nat) (w : Window) (s : State) : State :=
  let h := offeredHold rx token i party w s
  let held := raiseHolds token (makeHold h (reserveRoom i w.start party s))
  bump .offers
    (answerField rx (.offer (requestTag rx) h.id i w.start (lengthOf i s) s.settings.holdTime)
      (setRecent i (recent ++ [s.clock.elapsed]) held))

/-- Checks 13 and 14 and the service of a PASSREQ (R129, R130). -/
def limitAndSearch (rx : LineRx) (token : List Byte) (i party : Nat) (s : State) : State :=
  let recent := prunedRecent i s
  let pruned := setRecent i recent s
  if (rideCfg (rideAt i s)).burst ≤ recent.length then
    refuse rx 0x10 .busyRetry (recent.headD 0 + (rideCfg (rideAt i s)).interval - s.clock.elapsed) pruned
  else
    match searchRing i party (offerStart i (notBeforeOf rx) s) (busyWindows token s) s with
    | none => refuse rx 0x10 .noWindow 0 pruned
    | some w => serveOffer rx token i party recent w pruned

/-- Checks 10 to 12, then the rest (R127, R128). -/
def bookAndList (rx : LineRx) (token : List Byte) (i party : Nat) (s : State) : State :=
  if atWindowedLimit token s then refuse rx 0x10 .limit 0 s
  else if freeEntries s ≤ s.holds.length then
    refuse rx 0x10 .bookFull 0 (report .bookFull i (freeEntries s) s)
  else if Config.holdPlaces ≤ s.holds.length then
    refuse rx 0x10 .busyRetry (secondsToExpiry s) (report .holdsFull i (secondsToExpiry s) s)
  else limitAndSearch rx token i party s

/-- Check 9, then the rest (R126). -/
def judgeHeld (rx : LineRx) (token : List Byte) (i party : Nat) (s : State) : State :=
  match passOn token i s with
  | some (_, p) => refuse rx 0x10 .holdsPass (p.start.getD Config.noMinute) s
  | none =>
    match holdOn token i s with
    | some (_, h) => if repeatsHold rx party h then repeatOffer rx h s else refuse rx 0x10 .holdsPass h.start s
    | none => bookAndList rx token i party s

/-- An accepted PASSREQ (R125): request tag, ride index, party size, not-before minute, token. -/
def takePassReq (rx : LineRx) (s : State) : State :=
  match passReqRefusal (u8At (bodyOf rx) 2) (u8At (bodyOf rx) 3) (requestTokenBad 6 rx s) s with
  | some reason => refuse rx 0x10 reason 0 s
  | none => judgeHeld rx (requestToken 6 rx s) (u8At (bodyOf rx) 2) (u8At (bodyOf rx) 3) s

/-- PASSREQ: kind 10H, from kiosks. -/
def arrivePassReq (rx : LineRx) (s : State) : State :=
  consume 0x10 [.kiosk] passReqBodyOk (fun _ t => takePassReq rx t) rx s

/-- PASSREQ arrives on a port. -/
def execPassReq (rx : LineRx) (s : State) : Result := onArrival rx.port (linePayloadLength rx) (arrivePassReq rx) s

/-! ## TAKE (section 7.4) -/

/-- A granted TAKE (R133). -/
def grantTake (rx : LineRx) (slot : Nat) (h : Hold) (s : State) : State :=
  let converted := clearSlot slot (convertRoom h.ride h.start h.party s)
  answerField rx (.grant (requestTag rx) (freeEntry s) h.ride h.start (lengthOf h.ride s) h.party)
    (createGranted h converted)

/-- An accepted TAKE: request tag, hold id, token; the cases of R132 in order. -/
def acceptTake (rx : LineRx) (s : State) : State :=
  if s.device ≠ .day then refuse rx 0x11 .dayClosed 0 s
  else if requestTokenBad 4 rx s then refuse rx 0x11 .badToken 0 s
  else
    match holdWithId (u16At (bodyOf rx) 2) s with
    | none =>
      if s.expiredIds.contains (u16At (bodyOf rx) 2) then refuse rx 0x11 .expired 0 s
      else refuse rx 0x11 .unknownHold 0 s
    | some (slot, h) =>
      if h.token ≠ requestToken 4 rx s then refuse rx 0x11 .notOwner 0 s
      else if (rideAt h.ride s).state = .down then refuse rx 0x11 .rideDown 0 (releaseHold slot h s)
      else grantTake rx slot h s

/-- TAKE: kind 11H, from kiosks. -/
def arriveTake (rx : LineRx) (s : State) : State :=
  consume 0x11 [.kiosk] takeBodyOk (fun _ t => acceptTake rx t) rx s

/-- TAKE arrives on a port. -/
def execTake (rx : LineRx) (s : State) : Result := onArrival rx.port (linePayloadLength rx) (arriveTake rx) s

/-! ## DROP (section 7.5) -/

/-- An accepted DROP: request tag, hold id (R136). -/
def acceptDrop (rx : LineRx) (s : State) : State :=
  if s.device ≠ .day then s
  else
    match holdWithId (u16At (bodyOf rx) 2) s with
    | none => s
    | some (slot, h) =>
      if h.kiosk = sourceOf rx then releaseHold slot h s else refuse rx 0x12 .notOwner 0 s

/-- DROP: kind 12H, from kiosks. -/
def arriveDrop (rx : LineRx) (s : State) : State :=
  consume 0x12 [.kiosk] dropBodyOk (fun _ t => acceptDrop rx t) rx s

/-- DROP arrives on a port. -/
def execDrop (rx : LineRx) (s : State) : Result := onArrival rx.port (linePayloadLength rx) (arriveDrop rx) s

/-! ## CANCEL (section 6.6) -/

/-- Check 5 of R115: ANYTIME, partly admitted, or its window begun. -/
def cancelLate (p : Pass) (s : State) : Bool :=
  p.state == .anytime || decide (0 < p.admitted) || decide (p.start.getD 0 ≤ nowMinute s)

/-- The acknowledgement of a cancellation: a GRANT of party size 0 (R115). -/
def acknowledgeCancel (rx : LineRx) (k : Nat) (p : Pass) (s : State) : State :=
  answerField rx (.grant (requestTag rx) k p.ride (p.start.getD Config.noMinute) p.length 0) s

/-- An accepted CANCEL: request tag, ride index, token; the checks of R115 in order. -/
def acceptCancel (rx : LineRx) (s : State) : State :=
  if s.device ≠ .day then refuse rx 0x13 .dayClosed 0 s
  else if requestTokenBad 3 rx s then refuse rx 0x13 .badToken 0 s
  else if !configured (u8At (bodyOf rx) 2) s then refuse rx 0x13 .unknownRide 0 s
  else
    match passOn (requestToken 3 rx s) (u8At (bodyOf rx) 2) s with
    | none => refuse rx 0x13 .noPass 0 s
    | some (k, p) =>
      if cancelLate p s then refuse rx 0x13 .cancelLate 0 s else acknowledgeCancel rx k p (cancelLive k p s)

/-- CANCEL: kind 13H, from kiosks. -/
def arriveCancel (rx : LineRx) (s : State) : State :=
  consume 0x13 [.kiosk] cancelBodyOk (fun _ t => acceptCancel rx t) rx s

/-- CANCEL arrives on a port. -/
def execCancel (rx : LineRx) (s : State) : Result := onArrival rx.port (linePayloadLength rx) (arriveCancel rx) s

/-! ## REDEEM (section 8.1) -/

/-- The present time is before the early limit of a pass (R143). -/
def beforeEarlyLimit (start : Nat) (p : Pass) (s : State) : Bool :=
  decide (nowSecond s + ((rideCfg (rideAt p.ride s)).earlyGrace + adriftMinutes s) * 60 < start * 60)

/-- The present time is at or after the late limit of a pass (R143). -/
def atLateLimit (start : Nat) (p : Pass) (s : State) : Bool := decide (deadlineOf start p s * 60 ≤ nowSecond s)

/-- Checks 7 and 8 of Table 8-1, for the reason and extra they refuse with (R143). -/
def graceRefusal (p : Pass) (s : State) : Option (RefuseReason × Nat) :=
  match p.start with
  | none => none
  | some start =>
    if p.state = .anytime ∨ disrupted p s then none
    else if beforeEarlyLimit start p s then some (.early, start)
    else if atLateLimit start p s then some (.late, 0)
    else none

/-- Guests a REDEEM admits: at most 8, and at most what remains on the pass (R142, R144). -/
def admittedBy (count : Nat) (p : Pass) : Nat := min (min count 8) (p.party - p.admitted)

/-- An eligible REDEEM, its five steps in order (R144). -/
def admitGuests (rx : LineRx) (i count k : Nat) (p : Pass) (s : State) : State :=
  let a := admittedBy count p
  let logged := passLog .admission k p a s
  let booked := admitOn k p a logged
  let totalled := updTotals i (fun t => { t with admissions := addTotal t.admissions a }) booked
  bump .admits
    (answerField rx (.admission (requestTag rx) a (p.party - (p.admitted + a))) (raiseOccupancy i a totalled))

/-- An accepted REDEEM for the ride of the scanner: request tag, guest count, token; Table 8-1 in order (R142). -/
def acceptRedeem (rx : LineRx) (i : Nat) (s : State) : State :=
  if s.device ≠ .day then refuse rx 0x14 .dayClosed 0 s
  else if requestTokenBad 3 rx s then refuse rx 0x14 .badToken 0 s
  else if u8At (bodyOf rx) 2 = 0 then refuse rx 0x14 .badParty 0 s
  else if !configured i s then refuse rx 0x14 .unknownRide 0 s
  else if (rideAt i s).state = .closed then refuse rx 0x14 .rideClosed 0 s
  else if (rideAt i s).state = .down then refuse rx 0x14 .rideDown 0 s
  else
    match passOn (requestToken 3 rx s) i s with
    | none => refuse rx 0x14 .noPass 0 s
    | some (k, p) =>
      match graceRefusal p s with
      | some (reason, extra) => refuse rx 0x14 reason extra s
      | none => admitGuests rx i (u8At (bodyOf rx) 2) k p s

/-- The ride of a REDEEM is the binding of its scanner (section 8.1). -/
def redeemEffect (rx : LineRx) (st : Station) (s : State) : State :=
  match st.binding with
  | some i => acceptRedeem rx i s
  | none => s

/-- REDEEM: kind 14H, from return scanners. -/
def arriveRedeem (rx : LineRx) (s : State) : State :=
  consume 0x14 [.returnScanner] redeemBodyOk (redeemEffect rx) rx s

/-- REDEEM arrives on a port. -/
def execRedeem (rx : LineRx) (s : State) : Result := onArrival rx.port (linePayloadLength rx) (arriveRedeem rx) s

end Sys2Proof.Machine
end

