-- ==== Sys2Proof/Machine/Forwarding.lean ====
section
/-! DEFINITION. The classifier on a whole received frame (R1, R5, Table 1-6), and the rows that carry one. A frame is
taken for what its bytes are, whichever of these rows carries it (log 4). -/

namespace Sys2Proof.Machine

/-- The command a code names (Table 1-5). -/
def commandFor (code : Byte) : Command :=
  match code.toNat with
  | 0x01 => runIdentify
  | 0x02 => runLoadPark
  | 0x03 => runLoadClass
  | 0x04 => runLoadStation
  | 0x05 => runRemoveStation
  | 0x06 => runLoadRide
  | 0x07 => runUnloadRide
  | 0x08 => runLoadBoard
  | 0x09 => runLoadSymbols
  | 0x0A => runMakeReady
  | 0x0B => runDayBegin
  | 0x0C => runDayEnd
  | 0x0D => runPurge
  | 0x0E => runOpenRide
  | 0x0F => runCloseRide
  | 0x10 => runSetQueue
  | 0x11 => runSetMask
  | 0x12 => runIssueCourtesy
  | 0x13 => runCancelPass
  | 0x14 => runQueryRide
  | 0x15 => runQueryWindows
  | 0x16 => runQueryToken
  | 0x17 => runQueryPasses
  | 0x18 => runQueryStations
  | 0x19 => runReadCounters
  | _ => runUnknown

/-- A MGMT frame of any command code (R8). A payload that ends at the envelope holds no command. -/
def arriveMgmtLine (rx : LineRx) (s : State) : State :=
  match readMgmt rx with
  | some (code, m) => arriveMgmt code (commandFor code) m s
  | none =>
    if destOf rx ≠ ownStation s then forwardFrom rx.port (lineFrame 0x40 rx) s
    else if rx.port = .field then bump .wrongPortMgmt s
    else bump .malformed s

/-- The classifier's decision by kind (Table 1-6). -/
def arriveLine (kind : Byte) (rx : LineRx) (s : State) : State :=
  match kind.toNat with
  | 0x01 => arriveCount rx s
  | 0x02 => arriveDispatch rx s
  | 0x03 => arriveRideState rx s
  | 0x04 => arriveReleased rx s
  | 0x10 => arrivePassReq rx s
  | 0x11 => arriveTake rx s
  | 0x12 => arriveDrop rx s
  | 0x13 => arriveCancel rx s
  | 0x14 => arriveRedeem rx s
  | 0x30 => arriveBoard rx s
  | 0x31 => arriveTime rx s
  | 0x40 => arriveMgmtLine rx s
  | _ => forwardFrom rx.port (lineFrame kind rx) s

/-- The classifier on any frame (R1): other traffic, foreign frame, or line frame. -/
def arriveFrame (port : Port) (f : Frame) (s : State) : State :=
  if f.ethType ≠ Config.lineType then forwardFrom port f s
  else if !f.ourFormat then forwardFrom port f (bump .foreign s)
  else
    match readLine port f with
    | some (kind, rx) => arriveLine kind rx s
    | none => forwardFrom port f s

/-- FRAME_DISCARD (R1): the frame reaches no other block. -/
def execFrameDiscard (_port : Port) (_why : DiscardReason) (s : State) : Result := .next s

/-- OTHER_TRAFFIC (R1): forwarded unchanged in every device state, and not counted. -/
def execOtherTraffic (port : Port) (f : Frame) (s : State) : Result :=
  onArrival port f.payload.length
    (fun t => if f.ethType = Config.lineType then arriveFrame port f t else forwardFrom port f t) s

/-- FOREIGN_FRAME (R1): forwarded unchanged in every device state, and counted FOREIGN. -/
def execForeignFrame (port : Port) (f : Frame) (s : State) : Result :=
  onArrival port f.payload.length
    (fun t =>
      if f.ethType = Config.lineType ∧ f.ourFormat = false then forwardFrom port f (bump .foreign t)
      else arriveFrame port f t) s

/-- FORWARD (R5, Table 1-6): a line frame that is not observed, consumed or rewritten is forwarded unchanged. -/
def execForward (port : Port) (f : Frame) (s : State) : Result :=
  onArrival port f.payload.length (arriveFrame port f) s

/-- WRONG_PORT_MGMT (R8): dropped and counted, no answer. -/
def execWrongPortMgmt (rx : LineRx) (s : State) : Result :=
  onArrival rx.port (linePayloadLength rx)
    (fun t =>
      if rx.port = .field ∧ destOf rx = ownStation t then bump .wrongPortMgmt t else arriveMgmtLine rx t) s

/-- UNKNOWN_COMMAND (R174): a command code that is not in Table 1-5. -/
def execUnknownCommand (code : Byte) (rx : MgmtRx) (s : State) : Result := mgmtStep code (commandFor code) rx s

end Sys2Proof.Machine
end

