-- ==== Sys2Proof/Machine/Timers.lean ====
section
/-! DEFINITION. The steps of time: the oscillator's second, and the deadlines of the blocks. A deadline's step has its
effect when the elapsed count has reached it, and none otherwise (log 2); none runs while RESET is held (log 7). -/

namespace Sys2Proof.Machine

/-- The effect of an internal step, when RESET is not held. -/
def onInside (effect : State → State) (s : State) : Result := .next (if s.resetHeld then s else effect s)

/-- A deadline that is present and reached. -/
def reached (deadline : Option Nat) (s : State) : Bool := deadline.any (fun d => decide (d ≤ s.clock.elapsed))

/-- SECOND_TICK (R23, R24). -/
def execSecondTick (s : State) : Result := onInside tickSecond s

/-- The clock in a state whose sync mark is `age` seconds old becomes another, with its report (R25). -/
def ageClock (from_ : ClockState) (age : Nat) (new : ClockState) (s : State) : State :=
  if s.clock.state = from_ ∧ reached (s.clock.syncMark.map (fun m => m + age)) s then
    reportClockState { s with clock := { s.clock with state := new } }
  else s

/-- CLOCK_FREE (R25): SYNCED goes FREE at the sync mark plus 120. -/
def execClockFree (s : State) : Result := onInside (ageClock .synced 120 .free) s

/-- CLOCK_ADRIFT (R25): FREE goes ADRIFT at the sync mark plus 1800. -/
def execClockAdrift (s : State) : Result := onInside (ageClock .free 1800 .adrift) s

/-- The silence deadline of a station (R14). -/
def silenceDue (number : Nat) (s : State) : State :=
  match tblGet s.stations number with
  | some st =>
    if s.device ≠ .unconfigured ∧ st.supervision = .live ∧ reached st.deadline s then goSilent number st s else s
  | none => s

/-- SILENCE_EXPIRY of a station number (R14). -/
def execSilenceExpiry (station : Nat) (s : State) : Result := onInside (silenceDue station) s

/-- The expiry deadline of a hold (R137). -/
def holdDue (slot : Nat) (s : State) : State :=
  match tblGet s.holds slot with
  | some h => if reached (some h.deadline) s then expireHold slot h s else s
  | none => s

/-- HOLD_EXPIRY of a slot (R137). -/
def execHoldExpiry (slot : Nat) (s : State) : Result := onInside (holdDue slot) s

/-- The release deadline of a ride (R152). -/
def releaseDue (i : Nat) (s : State) : State :=
  match (rideAt i s).lane.outstanding with
  | some o => if reached (some o.deadline) s then timeOutRelease i o s else s
  | none => s

/-- RELEASE_TIMEOUT of a ride index (R152). -/
def execReleaseTimeout (ride : Nat) (s : State) : Result := onInside (releaseDue ride) s

/-- The refresh deadline of a board record (R169). -/
def refreshDue (index : Nat) (s : State) : State :=
  match tblGet s.boards index with
  | some b => if reached (some b.deadline) s then refreshBoard index b s else s
  | none => s

/-- BOARD_REFRESH of a board index (R169). -/
def execBoardRefresh (board : Nat) (s : State) : Result := onInside (refreshDue board) s

end Sys2Proof.Machine
end

