-- ==== Sys2Proof/Machine/Ports.lean ====
section
/-! DEFINITION. Links, transmitters and the RESET pin (section 1.6). -/

namespace Sys2Proof.Machine

/-! ## Links (R21) -/

/-- Frames of a transmitter that left a queue. -/
def sendingFrom (q : QueueName) (u : PortUnit) : Nat :=
  match u.sending, q with
  | some (.transit _), .transit => 1
  | some (.origin _), .origin => 1
  | _, _ => 0

/-- Frames waiting in a queue. -/
def waitingIn (q : QueueName) (u : PortUnit) : Nat :=
  match q with
  | .transit => u.transit.length
  | .origin => u.origin.length

/-- The frames a flush drops from a queue, with the one in the transmitter that had left it. -/
def flushed (q : QueueName) (u : PortUnit) : Nat := waitingIn q u + sendingFrom q u

/-- A port unit with nothing in it; the turn stays as it was. -/
def emptied (linkUp : Bool) (u : PortUnit) : PortUnit :=
  { u with transit := [], origin := [], sending := none, linkUp := linkUp }

/-- Reports move at a change of the park link (R192). -/
def reportsAtLink (p : Port) (s : State) : State :=
  match p with
  | .field => s
  | .park => moveReports s

/-- A link goes DOWN: both queues and the transmitter flushed, each frame counted (R21). -/
def dropLink (p : Port) (s : State) : State :=
  let u := portUnit p s
  let counted :=
    { s with
      counters :=
        addCounter (dropCounter p .origin) (flushed .origin u)
          (addCounter (dropCounter p .transit) (flushed .transit u) s.counters) }
  reportsAtLink p (setPort p (emptied false u) counted)

/-- A link comes UP: the port starts empty, with its turn as it was (R21). -/
def raiseLink (p : Port) (s : State) : State := reportsAtLink p (setPort p (emptied true (portUnit p s)) s)

/-- The link alone, while RESET is held: nothing is received, sent or counted (R22, log 7). -/
def noteLink (p : Port) (up : Bool) (s : State) : State := setPort p { portUnit p s with linkUp := up } s

/-- LINK_DOWN (R21); a link that is DOWN already goes down no further. -/
def execLinkDown (port : Port) (s : State) : Result :=
  .next (if s.resetHeld then noteLink port false s else if (portUnit port s).linkUp then dropLink port s else s)

/-- LINK_UP (R21); a link that is UP already comes up no further. -/
def execLinkUp (port : Port) (s : State) : Result :=
  .next (if s.resetHeld then noteLink port true s else if (portUnit port s).linkUp then s else raiseLink port s)

/-! ## Transmission (R20) -/

/-- The arbiter's choice: the queue the turn names when both hold frames, else the one that does (R20). -/
def chosenQueue (u : PortUnit) : Option QueueName :=
  match u.transit, u.origin with
  | [], [] => none
  | _ :: _, [] => some .transit
  | [], _ :: _ => some .origin
  | _ :: _, _ :: _ => some u.turn

/-- The turn after a frame was taken: the other queue (R20). -/
def otherQueue : QueueName → QueueName
  | .transit => .origin
  | .origin => .transit

/-- The unit after the head of a queue has gone to the transmitter. -/
def takeHead (q : QueueName) (u : PortUnit) : PortUnit :=
  match q with
  | .transit =>
    { u with transit := u.transit.drop 1, sending := u.transit.head?.map Sending.transit, turn := otherQueue .transit }
  | .origin =>
    { u with origin := u.origin.drop 1, sending := u.origin.head?.map Sending.origin, turn := otherQueue .origin }

/-- Reports move when a frame leaves the park origin queue (R192). -/
def reportsAfterTake (p : Port) (q : QueueName) (s : State) : State :=
  match p, q with
  | .park, .origin => moveReports s
  | _, _ => s

/-- The arbiter gives an idle transmitter a frame, when the link is UP and a queue holds one (R20). -/
def startSending (p : Port) (s : State) : State :=
  let u := portUnit p s
  if u.sending.isNone && u.linkUp then
    match chosenQueue u with
    | none => s
    | some q => reportsAfterTake p q (setPort p (takeHead q u) s)
  else s

/-- TRANSMIT_START (R20). -/
def execTransmitStart (port : Port) (s : State) : Result := onInside (startSending port) s

/-- The sending of a frame completes (R20). -/
def finishSending (p : Port) (s : State) : State := setPort p { portUnit p s with sending := none } s

/-- TRANSMIT_DONE (R20). -/
def execTransmitDone (port : Port) (s : State) : Result := onInside (finishSending port) s

/-! ## RESET (R22) -/

/-- A port unit after reset; its link state follows the link (section 1.6). -/
def resetPort (u : PortUnit) : PortUnit := { PortUnit.reset with linkUp := u.linkUp }

/-- Every block at its reset state, the straps read (R2), the links and the waiting commands as they are. -/
def resetState (straps : BitVec 12) (s : State) : State :=
  { State.reset with pending := s.pending, straps := straps, field := resetPort s.field, park := resetPort s.park }

/-- RESET: release of the RESET pin, or power-on (R22). -/
def execReset (straps : BitVec 12) (s : State) : Result := .next (resetState straps s)

/-- RESET_ASSERTED: from now on nothing is received or sent (R22). -/
def execResetAsserted (s : State) : Result := .next { s with resetHeld := true }

end Sys2Proof.Machine
end

