-- ==== Sys2Proof/Machine/Wire.lean ====
section
/-! DEFINITION. The bytes of the frames the part originates (R4, Tables 1-1 to 1-5). The queues hold these frames by
their named fields; a transmitter sends the bytes given here. -/

namespace Sys2Proof.Machine

/-! ## Codes (Table 1-4) -/

/-- REFUSE reason codes. -/
def refuseCode : RefuseReason → Nat
  | .dayClosed => 0x01
  | .badToken => 0x02
  | .badParty => 0x03
  | .unknownRide => 0x04
  | .rideClosed => 0x05
  | .rideDown => 0x06
  | .rideHeld => 0x07
  | .noControl => 0x08
  | .noPasses => 0x09
  | .clock => 0x0A
  | .holdsPass => 0x0B
  | .limit => 0x0C
  | .bookFull => 0x0D
  | .busyRetry => 0x0E
  | .noWindow => 0x0F
  | .unknownHold => 0x10
  | .notOwner => 0x11
  | .expired => 0x12
  | .cancelLate => 0x13
  | .noPass => 0x14
  | .early => 0x15
  | .late => 0x16

/-- REPORT kind codes. -/
def reportCode : ReportKind → Nat
  | .clockState => 0x01
  | .clockJump => 0x02
  | .stationSilent => 0x03
  | .stationLive => 0x04
  | .rideState => 0x05
  | .dayState => 0x06
  | .outageMerged => 0x07
  | .counterRestart => 0x08
  | .queueClamp => 0x09
  | .releaseTimeout => 0x0A
  | .releaseLate => 0x0B
  | .bookFull => 0x0C
  | .holdsFull => 0x0D

/-- PASSLOG event codes. -/
def eventCode : PassEvent → Nat
  | .grant => 0x01
  | .courtesy => 0x02
  | .admission => 0x03
  | .cancel => 0x04
  | .expire => 0x05
  | .disrupted => 0x06

/-- Station role codes. -/
def roleCode : Role → Nat
  | .entryCounter => 0x01
  | .boardCounter => 0x02
  | .rideControl => 0x03
  | .mergeGate => 0x04
  | .kiosk => 0x05
  | .returnScanner => 0x06
  | .board => 0x07

/-- MGMTANS reason codes. -/
def mgmtReasonCode : MgmtReason → Nat
  | .wrongState => 0x01
  | .range => 0x02
  | .notFound => 0x03
  | .full => 0x04
  | .incomplete => 0x05
  | .unknownCommand => 0x06

/-- MGMTANS result codes. -/
def resultCode : MgmtResult → Nat
  | .done => 0x00
  | .clamped => 0x01
  | .inPart => 0x02
  | .refused _ => 0x03

/-- The reason byte: 00H unless the result is REFUSED. -/
def reasonByte : MgmtResult → Nat
  | .refused reason => mgmtReasonCode reason
  | _ => 0x00

/-- Supervision states in the order of Table 1-7; the manual gives them no codes (log 1). -/
def supervisionValue : Supervision → Nat
  | .unheard => 0
  | .live => 1
  | .silent => 2

/-- Pass states in the order of Table 6-1; the manual gives them no codes (log 1). -/
def passStateValue : PassState → Nat
  | .issued => 0
  | .anytime => 1

/-! ## Fields -/

/-- A one-byte field. -/
def byteOf (n : Nat) : Byte := BitVec.ofNat 8 n

/-- A four-byte field. -/
def wordBytes (n : Nat) : List Byte := numberBytes (n / 65536) ++ numberBytes n

/-- A park second, FFFFFFFFH while park time is absent (R26). -/
def parkSecondBytes (t : Option Nat) : List Byte := wordBytes (t.getD 0xFFFFFFFF)

/-! ## Answer data as the values its rule lists, in order -/

/-- A yes-or-no value; the manual gives no codes to yes and no (log 27). -/
def flagValue (b : Bool) : Nat := if b then 1 else 0

/-- R176. -/
def identityValues (d : IdentifyData) : List Nat :=
  [Config.partCode, d.ownStation, deviceCode d.device, clockCode d.clock, d.daySecond.getD 0xFFFFFFFF, d.elapsed,
   d.stations, d.rides, d.boards, d.livePasses, d.holds, d.purgeCursor.getD 0xFFFF]

/-- R121; 0FFFFH for the absent window start of a courtesy pass (log 29). -/
def passEntryValues (e : PassEntry) : List Nat :=
  [e.index, e.ride, e.start.getD Config.noMinute, e.length, e.party, e.admitted, passStateValue e.state,
   flagValue e.disrupted]

/-- A count baseline or none: whether there is one, then the baseline. The manual gives no value for none (log 27). -/
def baselineValues (baseline : Option Nat) : List Nat := flagValue baseline.isSome :: baseline.toList

/-- R187. -/
def stationEntryValues (e : StationEntry) : List Nat :=
  [e.number, roleCode e.role, e.binding.getD 0xFF, e.window, supervisionValue e.supervision, e.remaining] ++
    baselineValues e.baseline

/-- R102: length, count, windows, then the room map. -/
def windowsValues (length : Nat) (ring : List Window) : List Nat :=
  [length, ring.length] ++ (ring.map (fun w => [w.start, w.capacity, w.issued, w.held])).flatten ++
    ring.map (fun w => flagValue w.mark)

/-- R185; the outage list is preceded by the number of its intervals, which the manual does not name (log 27). -/
def rideDataValues (d : RideData) : List Nat :=
  [d.cfg.classNo, d.cfg.windowLength, d.cfg.passShare, d.cfg.minLead, d.cfg.earlyGrace, d.cfg.lateGrace,
   d.cfg.displayStep, d.cfg.queueBase, d.cfg.threshold, d.cfg.batch, d.cfg.spacing, d.cfg.burst, d.cfg.interval,
   rideCode d.state, flagValue d.noControl, d.outages.length] ++
    (d.outages.map (fun o => [o.start, o.stop.getD 0xFFFFFFFF])).flatten ++
  [d.q, d.totals.entries.toNat, d.totals.boardings.toNat, d.totals.admissions.toNat, d.totals.granted.toNat,
   d.totals.seats.toNat, d.ignored, d.throughput, d.standbyRate, d.rawWait, d.posted, flagValue d.stale,
   d.mark.getD 0xFFFFFFFF, d.carry, d.nextReturn, d.holds, d.recentOffers, d.livePasses, d.occupancy, d.mergeCounter,
   d.releaseBatch, d.releaseSeconds]

/-- Table 11-2, in its order. -/
def counterValues (c : Counters) : List Nat :=
  [c.transitDropField, c.transitDropPark, c.originDropField, c.originDropPark, c.foreign, c.unknownStation,
   c.roleMismatch, c.malformed, c.wrongPortMgmt, c.counterRestarts, c.dispatchMerged, c.offers, c.grants, c.refusals,
   c.admits, c.expiries, c.reportLost]

/-- The values of an answer's data, in the order its rule gives. -/
def dataValues : AnswerData → List Nat
  | .empty => []
  | .identity d => identityValues d
  | .parkSettings d => [d.tokenLimit, d.pad.toNat, d.holdTime]
  | .classRate rate => [rate]
  | .mask level => [level]
  | .ringsBuilt count => [count]
  | .dayEnded closed live => [closed, live]
  | .purged cursor freed remaining => [cursor, freed, remaining]
  | .courtesyIndex index => [index]
  | .passBookReason reason extra => [refuseCode reason, extra]
  | .cancelled ride start party admitted returned => [ride, start, party, admitted, returned]
  | .ride d => rideDataValues d
  | .windows length ring => windowsValues length ring
  | .token holds passes => [holds, passes.length] ++ (passes.map passEntryValues).flatten
  | .passes ride free records next =>
    [ride, free, records.length] ++
      (records.map (fun r => passEntryValues r.1 ++ r.2.map (fun b => b.toNat))).flatten ++ next.toList
  | .stations total records next =>
    [total, records.length] ++ (records.map stationEntryValues).flatten ++ next.toList
  | .counters c free => counterValues c ++ [free]

/-- The positions of adjusted fields, preceded by their number, when the result is CLAMPED (R175). -/
def adjustedValues (r : Reply) : List Nat :=
  match r.result with
  | .clamped => r.adjusted.length :: r.adjusted
  | _ => []

/-- The bytes of an answer's values: none where the data is empty (R175), else unstated (log 1). -/
def valueBytes (code : Nat) (values : List Nat) : List Byte :=
  if values = [] then [] else Config.answerDataBytes code values

/-- The data bytes of a MGMTANS: READ_COUNTERS' values are two bytes each (R195). -/
def replyBytes (code : Nat) (r : Reply) : List Byte :=
  match r.data with
  | .counters c free => ((counterValues c).map numberBytes).flatten ++ valueBytes code [free]
  | other => valueBytes code (adjustedValues r ++ dataValues other)

/-! ## Bodies and frames -/

/-- Kind codes (Table 1-2). -/
def bodyKind : Body → Nat
  | .offer .. => 0x20
  | .grant .. => 0x21
  | .refuse .. => 0x22
  | .admission .. => 0x23
  | .release .. => 0x24
  | .board .. => 0x30
  | .mgmtAnswer .. => 0x41
  | .report .. => 0x42
  | .passLog .. => 0x43

/-- Body layouts (Tables 1-2 and 1-3). -/
def bodyBytes : Body → List Byte
  | .offer tag holdId ride start length seconds =>
    numberBytes tag ++ numberBytes holdId ++ [byteOf ride] ++ numberBytes start ++ [byteOf length, byteOf seconds]
  | .grant tag pass ride start length party =>
    numberBytes tag ++ numberBytes pass ++ [byteOf ride] ++ numberBytes start ++ [byteOf length, byteOf party]
  | .refuse tag kind reason extra =>
    numberBytes tag ++ [byteOf kind, byteOf (refuseCode reason)] ++ numberBytes extra
  | .admission tag admitted remaining => numberBytes tag ++ [byteOf admitted, byteOf remaining]
  | .release batch => [byteOf batch]
  | .board slots => [byteOf slots.length] ++ (slots.map slotBytes).flatten
  | .mgmtAnswer code tag reply =>
    [byteOf code] ++ numberBytes tag ++ [byteOf (resultCode reply.result), byteOf (reasonByte reply.result)] ++
      replyBytes code reply
  | .report r =>
    [byteOf (reportCode r.kind), byteOf (reportLevel r.kind)] ++ numberBytes r.subject ++ numberBytes r.detail ++
      parkSecondBytes r.parkSecond
  | .passLog event pass ride count start parkSecond token =>
    [byteOf (eventCode event)] ++ numberBytes pass ++ [byteOf ride, byteOf count] ++ numberBytes start ++
      parkSecondBytes parkSecond ++ token

/-- The Ethernet source address of originated frames: 02H, 51H, 16H, 00H, then the own station number (R4). -/
def ownMac (own : Nat) : Mac := BitVec.ofNat 48 (0x025116000000 + own)

/-- Envelope and body of an originated frame (R4, Table 1-1). -/
def originPayload (f : OriginFrame) : List Byte :=
  [Config.lineFormat, byteOf (bodyKind f.body)] ++ numberBytes f.source ++ numberBytes f.dest ++
    numberBytes (bodyBytes f.body).length ++ bodyBytes f.body

/-- A payload brought up to the Ethernet minimum (R4). -/
def padded (payload : List Byte) : List Byte :=
  payload ++ (List.range (Config.minFrame - Config.frameOverhead - payload.length)).map Config.paddingByte

/-- The Ethernet frame an originated frame is sent as. -/
def wireFrame (f : OriginFrame) : Frame :=
  { ethDst := f.ethDst, ethSrc := ownMac f.source, ethType := Config.lineType, payload := padded (originPayload f) }

/-- What a transmitter is sending. -/
def onWire : Sending → Frame
  | .transit f => f
  | .origin f => wireFrame f

end Sys2Proof.Machine
end

