-- ==== Sys2Proof/Machine/Dispatch.lean ====
section
/-! DEFINITION. One arm for each row of the table. -/

namespace Sys2Proof.Machine

/-- The effect of a command on everything but the queue of waiting commands. -/
def exec (i : Instr) (s : State) : Host.Outcome State Fault Refusal :=
  match i with
  | .frameDiscard port why => Sys2Proof.Machine.execFrameDiscard port why s
  | .otherTraffic port f => Sys2Proof.Machine.execOtherTraffic port f s
  | .foreignFrame port f => Sys2Proof.Machine.execForeignFrame port f s
  | .forward port f => Sys2Proof.Machine.execForward port f s
  | .count rx => Sys2Proof.Machine.execCount rx s
  | .dispatch rx => Sys2Proof.Machine.execDispatch rx s
  | .rideState rx => Sys2Proof.Machine.execRideState rx s
  | .released rx => Sys2Proof.Machine.execReleased rx s
  | .passReq rx => Sys2Proof.Machine.execPassReq rx s
  | .take rx => Sys2Proof.Machine.execTake rx s
  | .drop rx => Sys2Proof.Machine.execDrop rx s
  | .cancel rx => Sys2Proof.Machine.execCancel rx s
  | .redeem rx => Sys2Proof.Machine.execRedeem rx s
  | .board rx => Sys2Proof.Machine.execBoard rx s
  | .time rx => Sys2Proof.Machine.execTime rx s
  | .wrongPortMgmt rx => Sys2Proof.Machine.execWrongPortMgmt rx s
  | .unknownCommand code rx => Sys2Proof.Machine.execUnknownCommand code rx s
  | .identify rx => Sys2Proof.Machine.execIdentify rx s
  | .loadPark rx => Sys2Proof.Machine.execLoadPark rx s
  | .loadClass rx => Sys2Proof.Machine.execLoadClass rx s
  | .loadStation rx => Sys2Proof.Machine.execLoadStation rx s
  | .removeStation rx => Sys2Proof.Machine.execRemoveStation rx s
  | .loadRide rx => Sys2Proof.Machine.execLoadRide rx s
  | .unloadRide rx => Sys2Proof.Machine.execUnloadRide rx s
  | .loadBoard rx => Sys2Proof.Machine.execLoadBoard rx s
  | .loadSymbols rx => Sys2Proof.Machine.execLoadSymbols rx s
  | .makeReady rx => Sys2Proof.Machine.execMakeReady rx s
  | .dayBegin rx => Sys2Proof.Machine.execDayBegin rx s
  | .dayEnd rx => Sys2Proof.Machine.execDayEnd rx s
  | .purge rx => Sys2Proof.Machine.execPurge rx s
  | .openRide rx => Sys2Proof.Machine.execOpenRide rx s
  | .closeRide rx => Sys2Proof.Machine.execCloseRide rx s
  | .setQueue rx => Sys2Proof.Machine.execSetQueue rx s
  | .setMask rx => Sys2Proof.Machine.execSetMask rx s
  | .issueCourtesy rx => Sys2Proof.Machine.execIssueCourtesy rx s
  | .cancelPass rx => Sys2Proof.Machine.execCancelPass rx s
  | .queryRide rx => Sys2Proof.Machine.execQueryRide rx s
  | .queryWindows rx => Sys2Proof.Machine.execQueryWindows rx s
  | .queryToken rx => Sys2Proof.Machine.execQueryToken rx s
  | .queryPasses rx => Sys2Proof.Machine.execQueryPasses rx s
  | .queryStations rx => Sys2Proof.Machine.execQueryStations rx s
  | .readCounters rx => Sys2Proof.Machine.execReadCounters rx s
  | .secondTick => Sys2Proof.Machine.execSecondTick s
  | .clockFree => Sys2Proof.Machine.execClockFree s
  | .clockAdrift => Sys2Proof.Machine.execClockAdrift s
  | .silenceExpiry n => Sys2Proof.Machine.execSilenceExpiry n s
  | .holdExpiry n => Sys2Proof.Machine.execHoldExpiry n s
  | .releaseTimeout n => Sys2Proof.Machine.execReleaseTimeout n s
  | .boardRefresh n => Sys2Proof.Machine.execBoardRefresh n s
  | .linkDown port => Sys2Proof.Machine.execLinkDown port s
  | .linkUp port => Sys2Proof.Machine.execLinkUp port s
  | .transmitStart port => Sys2Proof.Machine.execTransmitStart port s
  | .transmitDone port => Sys2Proof.Machine.execTransmitDone port s
  | .reset straps => Sys2Proof.Machine.execReset straps s
  | .resetAsserted => Sys2Proof.Machine.execResetAsserted s

end Sys2Proof.Machine
end

