-- ==== Sys2Proof/Safety.lean ====
section
/-! DEFINITION. What is true of the part whatever commands it takes: the sizes of its queues, counters and tables, and
the conditions the manual says always hold between its blocks. Each is a decidable property of a state. -/

namespace Sys2Proof.Machine

/-! ## Queues and counters -/

/-- A port unit's queues hold no more than their places (section 1.6). -/
abbrev PortUnit.bounded (u : PortUnit) : Prop :=
  u.transit.length ≤ Config.transitPlaces ∧ u.origin.length ≤ Config.originPlaces

/-- Every queue holds no more than its places (section 1.6, R191). -/
abbrev State.queuesBounded (s : State) : Prop :=
  s.field.bounded ∧ s.park.bounded ∧ s.reportQueue.length ≤ Config.reportPlaces

/-- A report waits only while the park origin queue holds 8 frames or more (R192). -/
abbrev State.reportsHeldBack (s : State) : Prop :=
  s.reportQueue = [] ∨ Config.reportMark ≤ s.park.origin.length

/-- A port whose link is DOWN holds nothing, while the RESET pin is not held (R18, R21). -/
abbrev State.downPortsEmpty (s : State) : Prop :=
  s.resetHeld = false → ∀ u ∈ [s.field, s.park], u.linkUp = false → u.transit = [] ∧ u.origin = [] ∧ u.sending = none

/-- Every event counter is 65535 or less (R194). -/
abbrev State.countersBounded (s : State) : Prop := ∀ v ∈ counterValues s.counters, v ≤ Config.maxCount

/-! ## Tables -/

/-- The tables by key are in their canonical form. -/
abbrev State.tablesCanonical (s : State) : Prop :=
  tblWf s.stations ∧ tblWf s.passes ∧ tblWf s.tokens ∧ tblWf s.holds ∧ tblWf s.boards

/-- The tables by index have their entries: 48 rides, 16 classes, eight symbol sets. -/
abbrev State.tablesWhole (s : State) : Prop :=
  s.rides.length = Config.rideCount ∧ s.classes.length = Config.classCount ∧ s.symbols.length = Config.symbolSets

/-! ## The park clock -/

/-- Park time, the sync mark and the minute high mark are absent together, while the clock is UNSET (R24, R33,
section 2.2); the counts stay in range, and no mark lies in the future (R23, R24, R32). -/
abbrev Clock.sound (c : Clock) : Prop :=
  c.elapsed ≤ Config.maxElapsed ∧
    (c.parkTime.isSome ↔ c.state ≠ .unset) ∧ (c.syncMark.isSome ↔ c.state ≠ .unset) ∧
    (c.highMark.isSome ↔ c.state ≠ .unset) ∧
    (∀ t ∈ c.parkTime, t ≤ Config.maxDaySecond ∧ ∀ m ∈ c.highMark, t / 60 ≤ m ∧ m ≤ Config.maxDaySecond / 60) ∧
    (∀ m ∈ c.syncMark, m ≤ c.elapsed) ∧ (∀ j ∈ c.pendingJump, j.1 ≤ Config.maxDaySecond ∧ j.2 ≤ c.elapsed)

/-! ## The silence conditions (R15 to R17, R49, R82, R156) -/

/-- What each block holds of a ride's silence is what the station table derives. -/
abbrev State.silenceFollows (s : State) : Prop :=
  ∀ i < Config.rideCount,
    (rideAt i s).est.stale = counterSilence i s ∧ (rideAt i s).noControl = controlSilence i s ∧
      (rideAt i s).lane.gateSilence = gateSilence i s

/-! ## The park day (R26, R53, R85, R180 to R182) -/

/-- An unconfigured ride is CLOSED and has no ring. -/
abbrev Ride.idleUnlessConfigured (r : Ride) : Prop := r.cfg = none → r.state = .closed ∧ r.ring = []

/-- The device state fits the clock, the rides, the holds and the purge cursor. -/
abbrev State.dayShape (s : State) : Prop :=
  ((s.device = .day ∨ s.device = .closing) → s.clock.state ≠ .unset) ∧
    (s.device ≠ .day → s.holds = [] ∧ ∀ i < Config.rideCount, (rideAt i s).state = .closed) ∧
    (s.purgeCursor.isSome ↔ s.device = .closing) ∧
    (∀ i < Config.rideCount, (rideAt i s).idleUnlessConfigured) ∧
    ∀ e ∈ s.holds, e.2.ride < Config.rideCount ∧ (rideAt e.2.ride s).state ≠ .closed

/-! ## Room and holds (R89) -/

/-- The holds that name a window of a ride. -/
def holdsNaming (i start : Nat) (s : State) : List (Nat × Hold) :=
  s.holds.filter (fun e => e.2.ride == i && e.2.start == start)

/-- Guests of the holds that name a window. -/
def guestsHeld (i start : Nat) (s : State) : Nat := ((holdsNaming i start s).map (fun e => e.2.party)).sum

/-- Consecutive windows of a ring start a window length apart (section 5.1). -/
def spaced (length : Nat) (ring : List Window) : Bool :=
  match ring with
  | a :: b :: rest => b.start == a.start + length && spaced length (b :: rest)
  | _ => true

/-- "For every window in every ride's ring, issued plus held never exceeds capacity" (R86), which is at most 2000. A ring
rebuilt for a changed window length may count more than 2000 guests into a window, whose capacity is 2000 (log 22). -/
abbrev Window.withinCapacity (w : Window) : Prop := min 2000 (w.issued + w.held) ≤ w.capacity ∧ w.capacity ≤ 2000

/-- "For every window in a ring, held equals the sum of the party sizes of the holds naming it, and every hold names a
window that is in its ride's ring" (R89). -/
abbrev State.roomFitsHolds (s : State) : Prop :=
  (∀ i < Config.rideCount, ∀ w ∈ (rideAt i s).ring, w.held = guestsHeld i w.start s) ∧
    (∀ e ∈ s.holds, ∃ w ∈ (rideAt e.2.ride s).ring, w.start = e.2.start) ∧
    ∀ i < Config.rideCount,
      (∀ c ∈ (rideAt i s).cfg, 0 < c.windowLength) ∧ spaced (lengthOf i s) (rideAt i s).ring = true ∧
        ((rideAt i s).ring = [] ∨ (rideAt i s).ring.length = Config.ringLength)

/-- Every window of every ring stays within its capacity, and every hold is for 1 to 8 guests (R86, R93). -/
abbrev State.roomsSound (s : State) : Prop :=
  (∀ r ∈ s.rides, ∀ w ∈ r.ring, w.withinCapacity) ∧ ∀ e ∈ s.holds, 1 ≤ e.2.party ∧ e.2.party ≤ 8

/-- All that the manual says of holds: the shape of the day, whole and canonical tables, R86 and R89. -/
abbrev State.holdsSound (s : State) : Prop :=
  s.tablesCanonical ∧ s.tablesWhole ∧ s.dayShape ∧ s.roomFitsHolds ∧ s.roomsSound

/-! ## Rides: configuration, estimate, room map (Table 3-1, R58, R72, R74 to R76, R88, R146, R148) -/

/-- Every field of a configuration lies in its range, and K = 0 comes with pass share 0 (Table 3-1, R39). -/
abbrev RideCfg.inRange (c : RideCfg) : Prop :=
  c.classNo ≤ 15 ∧ c.windowLength ∈ [5, 10, 15, 20, 30] ∧ c.passShare ≤ 50 ∧ (c.batch = 0 → c.passShare = 0) ∧
    c.minLead ≤ 120 ∧ c.earlyGrace ≤ 30 ∧ c.lateGrace ≤ 60 ∧ c.displayStep ∈ [1, 5, 10] ∧ c.queueBase ≤ 30 ∧
    1 ≤ c.threshold ∧ c.threshold ≤ 64 ∧ c.batch ≤ 16 ∧ c.spacing ≤ 60 ∧ 1 ≤ c.burst ∧ c.burst ≤ 16 ∧
    5 ≤ c.interval ∧ c.interval ≤ 300

/-- Configurations, class rates, park settings and the report mask lie in their ranges (R39, R64, R177, R190). -/
abbrev State.settingsInRange (s : State) : Prop :=
  (∀ r ∈ s.rides, ∀ c ∈ r.cfg, c.inRange) ∧ (∀ n ∈ s.classes, n = 0 ∨ 60 ≤ n ∧ n ≤ 6000) ∧
    1 ≤ s.settings.tokenLimit ∧ s.settings.tokenLimit ≤ 4 ∧ 5 ≤ s.settings.holdTime ∧ s.settings.holdTime ≤ 60 ∧
    s.reportMask ≤ 15

/-- An outage list in order: every interval but the last is closed, none ends before it starts, and none starts before the
end of the one before it (R50 to R52). -/
def outagesOrdered : List Outage → Bool
  | [] => true
  | [o] => o.stop.all (fun e => decide (o.start ≤ e))
  | a :: b :: rest => a.stop.any (fun e => decide (a.start ≤ e ∧ e ≤ b.start)) && outagesOrdered (b :: rest)

/-- The last interval of an outage list is open. -/
def outageOpen (os : List Outage) : Bool := os.getLast?.any (fun o => o.stop.isNone)

/-- The outage list is in order, and its last interval is open exactly while the ride is DOWN (R50, R51). -/
abbrev Ride.outagesSound (r : Ride) : Prop :=
  outagesOrdered r.outages = true ∧ (outageOpen r.outages = true ↔ r.state = .down)

/-- "The posted wait P is always a multiple of the ride's step and never exceeds top(s)" (R80, Table 4-2). -/
abbrev Ride.postable (r : Ride) : Prop :=
  ∀ c ∈ r.cfg, r.est.posted % c.displayStep = 0 ∧ r.est.posted ≤ topOf c.displayStep

/-- Counts of a ride lie in their ranges, and the room map shows the rooms. -/
abbrev Ride.inRange (r : Ride) : Prop :=
  r.q ≤ Config.maxOccupancy ∧ r.lane.occupancy ≤ Config.maxOccupancy ∧ r.lane.mergeCounter ≤ 255 ∧
    r.outages.length ≤ 4 ∧ r.ignored ≤ Config.maxCount ∧ r.est.carry ≤ Config.maxCount ∧ r.est.rawWait ≤ 999 ∧
    r.est.posted ≤ 999 ∧ 1 ≤ r.est.standbyRate ∧ ∀ w ∈ r.ring, w.mark = decide (1 ≤ roomOf w)

/-- A configured ride's S and W_raw are what its present inputs give, and T lies in its band unless it is CLOSED. -/
abbrev State.estimatesCurrent (s : State) : Prop :=
  ∀ i < Config.rideCount, ∀ c ∈ (rideAt i s).cfg,
    (rideAt i s).est.standbyRate =
        standbyRateOf (rideAt i s).est.throughput c.threshold c.batch (rideAt i s).lane.occupancy ∧
      (rideAt i s).est.rawWait = rawWaitOf c.queueBase (rideAt i s).q (rideAt i s).est.standbyRate ∧
      ((rideAt i s).state ≠ .closed →
        classRate c.classNo s / 4 ≤ (rideAt i s).est.throughput ∧
          (rideAt i s).est.throughput ≤ 3 * classRate c.classNo s / 2)

/-- All that the manual says of a ride's record by itself. -/
abbrev State.ridesSound (s : State) : Prop :=
  s.tablesWhole ∧ s.dayShape ∧ s.settingsInRange ∧ (∀ r ∈ s.rides, r.inRange ∧ r.outagesSound ∧ r.postable) ∧
    s.estimatesCurrent

/-! ## The pass book and the hold list (section 6.2, R104, R107 to R109, R122 to R124, R127) -/

/-- A pass record: a party of 1 to 8, fewer admitted, a ride index, and a window with its length, or neither and ANYTIME
(section 6.2, R107). -/
abbrev Pass.sound (p : Pass) : Prop :=
  1 ≤ p.party ∧ p.party ≤ 8 ∧ p.admitted < p.party ∧ p.ride < Config.rideCount ∧
    (p.state = .issued → p.start.isSome) ∧
    (if p.start.isSome then p.length ∈ [5, 10, 15, 20, 30] else p.length = 0)

/-- Indices and ids lie in their ranges, none is given twice, passes and parties are sound, and every hold has an entry
waiting for it. -/
abbrev State.listsSound (s : State) : Prop :=
  1 ≤ s.nextId ∧ s.nextId ≤ 65535 ∧ s.expiredIds.length ≤ Config.expiredPlaces ∧ s.expiredIds.Nodup ∧
    (∀ e ∈ s.holds, e.1 < Config.holdPlaces ∧ 1 ≤ e.2.id ∧ e.2.id ≤ 65535 ∧ 1 ≤ e.2.party ∧ e.2.party ≤ 8) ∧
    (s.holds.map (fun e => e.2.id)).Nodup ∧
    (∀ e ∈ s.passes, e.1 < Config.passPlaces ∧ e.2.sound) ∧ s.passes.length + s.holds.length ≤ Config.passPlaces

/-- A token record stands at its token's key, lists that token's live passes, counts its holds, is not empty, and keeps
to the two limits. -/
abbrev TokenRec.sound (s : State) (r : TokenRec) : Prop :=
  r.token.length = 16 ∧ (r.passes ≠ [] ∨ r.holds ≠ 0) ∧
    r.holds = (s.holds.filter (fun e => e.2.token == r.token)).length ∧ r.passes.Nodup ∧
    (∀ k ∈ r.passes, ∃ p, tblGet s.passes k = some p ∧ p.token = r.token) ∧ r.passes.length + r.holds ≤ 6 ∧
    windowedPlacesOf r.token s ≤ s.settings.tokenLimit

/-- Every pass and every hold has its token record, and outside DAY and CLOSING there is no pass. -/
abbrev State.tokensSound (s : State) : Prop :=
  (∀ e ∈ s.tokens, e.1 = tokenKey e.2.token ∧ e.2.sound s) ∧
    (∀ e ∈ s.holds, ∃ r, tokenRec e.2.token s = some r ∧ r.token = e.2.token) ∧
    (∀ e ∈ s.passes, ∃ r, tokenRec e.2.token s = some r ∧ r.token = e.2.token ∧ e.1 ∈ r.passes) ∧
    (s.device = .unconfigured ∨ s.device = .ready → s.passes = [])

/-- All that the manual says of passes and tokens. -/
abbrev State.bookSound (s : State) : Prop :=
  s.tablesCanonical ∧ s.tablesWhole ∧ s.dayShape ∧ s.settingsInRange ∧ s.listsSound ∧ s.tokensSound

/-! ## Timers (R14, R23, R25, R137, R152, R169) -/

/-- No deadline has been reached that has not been taken: the timer steps of the present second come before the next
SECOND_TICK (log 2). Queues of commands that keep this are the runs the manual describes. -/
abbrev State.timely (s : State) : Prop :=
  (∀ e ∈ s.stations, s.device ≠ .unconfigured → e.2.supervision = .live → ∀ d ∈ e.2.deadline, s.clock.elapsed < d) ∧
    (∀ e ∈ s.holds, s.clock.elapsed < e.2.deadline) ∧
    (∀ i < Config.rideCount, ∀ o ∈ (rideAt i s).lane.outstanding, s.clock.elapsed < o.deadline) ∧
    (∀ e ∈ s.boards, s.clock.elapsed < e.2.deadline) ∧
    ∀ m ∈ s.clock.syncMark,
      (s.clock.state = .synced → s.clock.elapsed < m + 120) ∧ (s.clock.state = .free → s.clock.elapsed < m + 1800)

end Sys2Proof.Machine
end

