-- ==== Sys2Proof/Certificates/Slice0/Obligations.lean ====
section
/-! DEFINITION. The statements for the provers. The first part is their vocabulary: what it is for a command to run, to
be received and to be accepted, written from the manual's tables. -/

namespace Sys2Proof.Claims

open Sys2Proof.Machine

/-! ## Commands that run -/

/-- The command answers this next state. -/
abbrev Runs (c : Instr) (s t : State) : Prop := exec c s = .next t

/-- A port receives: the RESET pin is released and the link is UP (R21, R22). -/
structure Receives (p : Port) (s : State) : Prop where
  released : s.resetHeld = false
  linkUp : (portUnit p s).linkUp = true

/-- A payload makes a frame of 64 bytes or more, with the addresses, the type and the CRC (R1). -/
abbrev LongEnough (payload : Nat) : Prop := 64 ≤ 18 + payload

/-- Table 1-2, body lengths and value checks of the nine kinds that come from field stations (R3). -/
structure FieldRow where
  kind : Byte
  command : LineRx → Instr
  roles : List Role
  fits : List Byte → Prop
  observed : Bool

/-- COUNT. -/
def countRow : FieldRow :=
  { kind := 0x01, command := .count, roles := [.entryCounter, .boardCounter], fits := fun b => b.length = 2,
    observed := true }
/-- DISPATCH. -/
def dispatchRow : FieldRow :=
  { kind := 0x02, command := .dispatch, roles := [.rideControl], fits := fun b => b.length = 2, observed := true }
/-- RIDESTATE. -/
def rideStateRow : FieldRow :=
  { kind := 0x03, command := .rideState, roles := [.rideControl],
    fits := fun b => b.length = 1 ∧ 1 ≤ u8At b 0 ∧ u8At b 0 ≤ 3, observed := true }
/-- RELEASED. -/
def releasedRow : FieldRow :=
  { kind := 0x04, command := .released, roles := [.mergeGate], fits := fun b => b.length = 1, observed := true }
/-- PASSREQ. -/
def passReqRow : FieldRow :=
  { kind := 0x10, command := .passReq, roles := [.kiosk], fits := fun b => b.length = 7 + u8At b 6, observed := false }
/-- TAKE. -/
def takeRow : FieldRow :=
  { kind := 0x11, command := .take, roles := [.kiosk], fits := fun b => b.length = 5 + u8At b 4, observed := false }
/-- DROP. -/
def dropRow : FieldRow :=
  { kind := 0x12, command := .drop, roles := [.kiosk], fits := fun b => b.length = 4, observed := false }
/-- CANCEL. -/
def cancelRow : FieldRow :=
  { kind := 0x13, command := .cancel, roles := [.kiosk], fits := fun b => b.length = 4 + u8At b 3, observed := false }
/-- REDEEM. -/
def redeemRow : FieldRow :=
  { kind := 0x14, command := .redeem, roles := [.returnScanner], fits := fun b => b.length = 4 + u8At b 3,
    observed := false }

/-- The field rows of Table 1-6. -/
def fieldRows : List FieldRow :=
  [countRow, dispatchRow, rideStateRow, releasedRow, passReqRow, takeRow, dropRow, cancelRow, redeemRow]

/-- A field frame that reaches the four steps of R6. -/
structure Judged (rx : LineRx) (s : State) : Prop where
  received : Receives .field s
  onField : rx.port = .field
  long : LongEnough (8 + rx.rest.length)
  inService : s.device ≠ .unconfigured

/-- A well-formed envelope (R1). -/
abbrev EnvelopeFits (rx : LineRx) : Prop := rx.bodyLen.toNat ≤ 1188 ∧ rx.bodyLen.toNat ≤ rx.rest.length

/-- An accepted frame of its source station, whose record is `st` (R6). -/
structure Accepted (row : FieldRow) (rx : LineRx) (s : State) (st : Station) : Prop where
  judged : Judged rx s
  envelope : EnvelopeFits rx
  known : tblGet s.stations rx.source.toNat = some st
  role : st.role ∈ row.roles
  body : row.fits (bodyOf rx)

/-- The state after supervision has been updated, which is before the owner takes the effect (R7). -/
abbrev heardState (rx : LineRx) (st : Station) (s : State) : State := hear rx.source.toNat st s

/-- An observed frame goes on to the park port's transit queue (R7). -/
abbrev passedOn (row : FieldRow) (rx : LineRx) (s : State) : State := placeTransit .park (lineFrame row.kind rx) s

/-- An answer to a request goes to the field origin queue, to the station and address it came from (R4, R7). -/
abbrev answered (rx : LineRx) (body : Body) (s : State) : State :=
  placeOrigin .field { ethDst := rx.ethSrc, source := ownStation s, dest := rx.source.toNat, body := body } s

/-- A frame that goes to the broadcast address (R4). -/
abbrev broadcastTo (p : Port) (dest : Nat) (body : Body) (s : State) : State :=
  placeOrigin p { ethDst := 0xFFFFFFFFFFFF, source := ownStation s, dest := dest, body := body } s

/-- The request tag, first in every request's body (Table 1-2). -/
abbrev tagOf (rx : LineRx) : Nat := u16At (bodyOf rx) 0

/-! ## Management commands -/

/-- A MGMT frame that is consumed and handed to the management unit (R8). -/
structure Commanded (rx : MgmtRx) (s : State) : Prop where
  received : Receives .park s
  onPark : rx.port = .park
  long : LongEnough (9 + rx.tail.length)
  addressed : rx.dest.toNat = ownStation s
  envelope : rx.bodyLen.toNat ≤ 1188 ∧ rx.bodyLen.toNat ≤ 1 + rx.tail.length
  body : 3 ≤ rx.bodyLen.toNat

/-- The parameter bytes, after command code and command tag (Table 1-2). -/
def params (rx : MgmtRx) : List Byte := (rx.tail.take (rx.bodyLen.toNat - 1)).drop 2

/-- One MGMTANS in the park origin queue, with the command code and command tag (R4, R174). -/
abbrev replied (code : Nat) (rx : MgmtRx) (reply : Reply) (s : State) : State :=
  placeOrigin .park
    { ethDst := rx.ethSrc, source := ownStation s, dest := rx.source.toNat,
      body := .mgmtAnswer code (u16At rx.tail 0) reply } s

/-- DONE with data (R175). -/
abbrev done (data : AnswerData) : Reply := { result := .done, adjusted := [], data := data }

/-- REFUSED with a reason (R175). -/
abbrev refused (reason : MgmtReason) : Reply := { result := .refused reason, adjusted := [], data := .empty }

/-- DONE when nothing was adjusted, else CLAMPED with the positions (R175). -/
abbrev doneOrClamped (adjusted : List Nat) (data : AnswerData) : Reply :=
  { result := if adjusted = [] then .done else .clamped, adjusted := adjusted, data := data }

/-- The counter of frames dropped on their way to a port's transit queue (R18). -/
abbrev transitDrop (p : Port) : Counter :=
  match p with
  | .field => .transitDropField
  | .park => .transitDropPark

/-- The counter of frames dropped on their way to a port's origin queue (R18). -/
abbrev originDrop (p : Port) : Counter :=
  match p with
  | .field => .originDropField
  | .park => .originDropPark

/-- Transit frames of a port unit: those waiting, and the one in the transmitter that had left the queue. -/
abbrev transitFrames (u : PortUnit) : Nat :=
  u.transit.length + match u.sending with
    | some (.transit _) => 1
    | _ => 0

/-- Origin frames of a port unit, in the same way. -/
abbrev originFrames (u : PortUnit) : Nat :=
  u.origin.length + match u.sending with
    | some (.origin _) => 1
    | _ => 0

/-- The counters after a flush of a port unit (R21). -/
abbrev countersFlushed (p : Port) (s : State) : Counters :=
  addCounter (originDrop p) (originFrames (portUnit p s))
    (addCounter (transitDrop p) (transitFrames (portUnit p s)) s.counters)

/-- Reports move at a change of the park port (R192). -/
abbrev thenReports (p : Port) (s : State) : State :=
  match p with
  | .field => s
  | .park => moveReports s

/-! ## What a change leaves alone -/

/-- Every ride but one is as it was. -/
abbrev OtherRidesKept (i : Nat) (s t : State) : Prop := ∀ j, j ≠ i → rideAt j t = rideAt j s

/-- A change that reaches only rides, ports, reports and counters. -/
abbrev OnlyRidesAndPorts (s t : State) : Prop :=
  t = { s with rides := t.rides, field := t.field, park := t.park, reportQueue := t.reportQueue,
               counters := t.counters }

/-- A change that reaches only rides, ports, reports, counters and the station table. -/
abbrev OnlyRidesPortsStations (s t : State) : Prop :=
  t = { s with stations := t.stations, rides := t.rides, field := t.field, park := t.park,
               reportQueue := t.reportQueue, counters := t.counters }

end Sys2Proof.Claims

open Sys2Proof Sys2Proof.Machine Sys2Proof.Claims

/-! ## Steps, commands and reset -/

/-- A step takes the command at the front of the queue and runs it on the state with the queue's rest; on an empty
queue the part idles, which is the model's choice (log 3). -/
def Obligations.StepRunsTheCommandInFront : Prop :=
  (∀ (c : Instr) (rest : List Instr) (s : State), step { s with pending := c :: rest } = exec c { s with pending := rest }) ∧
    ∀ s : State, s.pending = [] → step s = .next s

/-- Every command of the table answers a next state in every state, and leaves the waiting commands to the queue: the
manual gives the part no fault (log 2 for a timer whose deadline is not reached, log 4 for a frame's bytes). -/
def Obligations.EveryCommandAnswersANextState : Prop :=
  ∀ (c : Instr) (s : State), ∃ t, Runs c s t ∧ t.pending = s.pending

/-- R22, R36, R62, R63, R66, R122, R140, R161, R172, R177, R188, R196: what RESET leaves; R2: the straps are read. -/
def Sys2Proof.Claims.ResetLeavesTheResetState : Prop :=
  ∀ (straps : BitVec 12) (s : State), ∃ t, Runs (.reset straps) s t ∧
    t.resetHeld = false ∧ t.device = .unconfigured ∧ t.purgeCursor = none ∧
    t.settings = { tokenLimit := 2, pad := 0x20, holdTime := 20 } ∧
    t.reportMask = 8 ∧ t.reportQueue = [] ∧ (∀ v ∈ counterValues t.counters, v = 0) ∧
    (∀ p, (portUnit p t).transit = [] ∧ (portUnit p t).origin = [] ∧ (portUnit p t).sending = none ∧
      (portUnit p t).turn = .transit ∧ (portUnit p t).linkUp = (portUnit p s).linkUp) ∧
    t.clock = { elapsed := 0, parkTime := none, state := .unset, syncMark := none, pendingJump := none,
                highMark := none } ∧
    t.stations = [] ∧ (∀ n < 16, classRate n t = 0) ∧
    (∀ i < 48, rideAt i t =
      { cfg := none, state := .closed, noControl := false, outages := [], q := 0,
        totals := { entries := 0, boardings := 0, admissions := 0, granted := 0, seats := 0 }, ignored := 0,
        est := { throughput := 0, mark := none, carry := 0, standbyRate := 1, rawWait := 0, posted := 0,
                 stale := false, firstPosting := false },
        ring := [], recent := [],
        lane := { occupancy := 0, mergeCounter := 0, outstanding := none, gateSilence := false } }) ∧
    t.passes = [] ∧ t.tokens = [] ∧ t.holds = [] ∧ t.nextId = 1 ∧ t.expiredIds = [] ∧ t.boards = [] ∧
    (∀ set < 8, ∀ symbol < 8, symbolCode set symbol t = 0) ∧
    ownStation t = if straps.toNat = 0 ∨ straps.toNat = 4095 then 4094 else straps.toNat

/-- R2: "The own station number keeps this value until the next reset". -/
def Sys2Proof.Claims.OwnStationChangesOnlyAtReset : Prop :=
  ∀ (c : Instr) (s t : State), (∀ straps, c ≠ .reset straps) → Runs c s t → ownStation t = ownStation s

/-- R2, R22, R36, R62, R63, R66, R122, R140, R161, R172, R177, R188, R196: what RESET leaves, the straps read; and the
own station number changes at no other command. That a link keeps its state is the model's reading (log 6). -/
def Obligations.ResetLeavesTheResetState : Prop :=
  Sys2Proof.Claims.ResetLeavesTheResetState ∧ Sys2Proof.Claims.OwnStationChangesOnlyAtReset

/-- R22: while the RESET pin is held nothing is received or sent, and a frame that arrives is lost without being
counted. That the part's inside stands still, every timer and the second's count too, and that a link change is noted
and flushes and counts nothing, is the model's reading (log 7). -/
def Obligations.NothingMovesWhileResetIsHeld : Prop :=
  (∀ s : State, Runs .resetAsserted s { s with resetHeld := true }) ∧
    (∀ (c : Instr) (s : State), s.resetHeld = true → (∀ straps, c ≠ .reset straps) → (∀ p, c ≠ .linkDown p) →
      (∀ p, c ≠ .linkUp p) → Runs c s s) ∧
    ∀ p (s : State), s.resetHeld = true →
      Runs (.linkDown p) s (setPort p { portUnit p s with linkUp := false } s) ∧
      Runs (.linkUp p) s (setPort p { portUnit p s with linkUp := true } s)

/-! ## Ports, queues, reports and counters -/

/-- R1, R5, R8 and Table 1-6: the frames that are discarded, counted, forwarded or dropped without reaching a block. -/
def Sys2Proof.Claims.FramesThatReachNoBlock : Prop :=
  (∀ port why (s : State), Runs (.frameDiscard port why) s s) ∧
    (∀ port f s, Receives port s → LongEnough f.payload.length → f.ethType ≠ 0x9C5E →
      Runs (.otherTraffic port f) s (placeTransit (otherPort port) f s)) ∧
    (∀ port f s, Receives port s → LongEnough f.payload.length → f.ethType = 0x9C5E → f.payload.head? ≠ some 0x03 →
      Runs (.foreignFrame port f) s (placeTransit (otherPort port) f (bump .foreign s))) ∧
    (∀ port (f : Frame) s rest, Receives port s → LongEnough f.payload.length → f.ethType = 0x9C5E →
      (∃ kind, f.payload = 0x03 :: kind :: rest ∧ kind.toNat ∉ [0x01, 0x02, 0x03, 0x04, 0x10, 0x11, 0x12, 0x13, 0x14,
        0x30, 0x31, 0x40]) → Runs (.forward port f) s (placeTransit (otherPort port) f s)) ∧
    (∀ rx s, Receives .field s → rx.port = .field → LongEnough (8 + rx.rest.length) → rx.dest.toNat = ownStation s →
      Runs (.wrongPortMgmt rx) s (bump .wrongPortMgmt s)) ∧
    ∀ rx s, Receives rx.port s → LongEnough (8 + rx.rest.length) → rx.dest.toNat ≠ ownStation s →
      Runs (.forward rx.port (lineFrame 0x40 rx)) s (placeTransit (otherPort rx.port) (lineFrame 0x40 rx) s)

/-- R18: a frame joins the tail of its queue, or is dropped and counted for the queue and port it was going to. -/
def Obligations.FrameJoinsItsQueueOrIsCounted : Prop :=
  (∀ p f (s : State), (portUnit p s).linkUp = true → (portUnit p s).transit.length < 64 →
    portUnit p (placeTransit p f s) = { portUnit p s with transit := (portUnit p s).transit ++ [f] } ∧
      portUnit (otherPort p) (placeTransit p f s) = portUnit (otherPort p) s ∧
      placeTransit p f s = { s with field := (placeTransit p f s).field, park := (placeTransit p f s).park }) ∧
  (∀ p f (s : State), (portUnit p s).linkUp = true → (portUnit p s).origin.length < 16 →
    portUnit p (placeOrigin p f s) = { portUnit p s with origin := (portUnit p s).origin ++ [f] } ∧
      portUnit (otherPort p) (placeOrigin p f s) = portUnit (otherPort p) s ∧
      placeOrigin p f s = { s with field := (placeOrigin p f s).field, park := (placeOrigin p f s).park }) ∧
  (∀ p f (s : State), (portUnit p s).linkUp = false ∨ 64 ≤ (portUnit p s).transit.length →
    placeTransit p f s = bump (transitDrop p) s) ∧
  ∀ p f (s : State), (portUnit p s).linkUp = false ∨ 16 ≤ (portUnit p s).origin.length →
    placeOrigin p f s = bump (originDrop p) s

/-- R189, R191, R192: a report below the mask is discarded, one that finds 32 waiting is lost and counted, the others
wait in their order; and the head of the report queue moves while the park origin queue holds fewer than 8 frames. -/
def Obligations.ReportsAreMaskedQueuedAndMoved : Prop :=
  (∀ (kind : ReportKind) (subject detail : Nat) (s : State),
    (reportLevel kind < s.reportMask → report kind subject detail s = s) ∧
    (s.reportMask ≤ reportLevel kind → 32 ≤ s.reportQueue.length →
      report kind subject detail s = bump .reportLost s) ∧
    (s.reportMask ≤ reportLevel kind → s.reportQueue.length < 32 →
      report kind subject detail s =
        moveReports { s with reportQueue := s.reportQueue ++
          [{ kind := kind, subject := subject, detail := detail, parkSecond := s.clock.parkTime }] })) ∧
  (∀ s : State, s.reportQueue = [] ∨ 8 ≤ s.park.origin.length → moveReports s = s) ∧
  ∀ (s : State) r rest, s.reportQueue = r :: rest → s.park.origin.length < 8 →
    moveReports s = moveReports { broadcastTo .park 4095 (.report r) s with reportQueue := rest }

/-- R194, R195: an event counter holds at 65535 and no other changes; READ_COUNTERS gives all seventeen and the free
entry count, and clears them when it is asked to. -/
def Obligations.CountersHoldAndAreRead : Prop :=
  (∀ (name other : Counter) (s : State),
    readCounter other (bump name s).counters =
      if other = name then min 65535 (readCounter name s.counters + 1) else readCounter other s.counters) ∧
  ∀ rx s, Commanded rx s → 1 ≤ (params rx).length →
    Runs (.readCounters rx) s
      (replied 0x19 rx (done (.counters s.counters (8192 - s.passes.length)))
        (if u8At (params rx) 0 = 0 then s else { s with counters := Counters.zero }))

/-- Tables 1-1, 1-2 and 1-5: the classifier reads a frame's kind byte, and of a MGMT its command code, as the rows say
(log 4: FORWARD carries any line frame). -/
def Sys2Proof.Claims.TheClassifierReadsKindAndCode : Prop :=
  (∀ kind rx, readLine rx.port (lineFrame kind rx) = some (kind, rx)) ∧
  (∀ row ∈ fieldRows, ∀ rx s, exec (.forward rx.port (lineFrame row.kind rx)) s = exec (row.command rx) s) ∧
  (∀ rx s, exec (.forward rx.port (lineFrame 0x30 rx)) s = exec (.board rx) s ∧
    exec (.forward rx.port (lineFrame 0x31 rx)) s = exec (.time rx) s) ∧
  ∀ e ∈ ([(0x01, .identify), (0x02, .loadPark), (0x03, .loadClass), (0x04, .loadStation), (0x05, .removeStation),
      (0x06, .loadRide), (0x07, .unloadRide), (0x08, .loadBoard), (0x09, .loadSymbols), (0x0A, .makeReady),
      (0x0B, .dayBegin), (0x0C, .dayEnd), (0x0D, .purge), (0x0E, .openRide), (0x0F, .closeRide), (0x10, .setQueue),
      (0x11, .setMask), (0x12, .issueCourtesy), (0x13, .cancelPass), (0x14, .queryRide), (0x15, .queryWindows),
      (0x16, .queryToken), (0x17, .queryPasses), (0x18, .queryStations),
      (0x19, .readCounters)] : List (Byte × (MgmtRx → Instr))),
    ∀ rx s, exec (.forward rx.port (lineFrame 0x40 (mgmtLine e.1 rx))) s = exec (e.2 rx) s

/-- R21: a link that goes DOWN flushes both queues and the transmitter, each frame counted for the queue it came from;
when it comes UP the port starts empty, with its turn as it was. Nothing else of the part changes but the reports R192
moves. -/
def Sys2Proof.Claims.LinksGoDownAndComeUp : Prop :=
  (∀ p (s : State), s.resetHeld = false → (portUnit p s).linkUp = true →
    Runs (.linkDown p) s
      (thenReports p
        (setPort p { transit := [], origin := [], sending := none, turn := (portUnit p s).turn, linkUp := false }
          { s with counters := countersFlushed p s }))) ∧
  ∀ p (s : State), s.resetHeld = false → (portUnit p s).linkUp = false →
    Runs (.linkUp p) s
      (thenReports p
        (setPort p { transit := [], origin := [], sending := none, turn := (portUnit p s).turn, linkUp := true } s))

/-- R20: the arbiter serves the queue the turn names when both hold frames, the one that does otherwise, and the turn
passes to the other queue; a transmission that ends leaves the transmitter idle. -/
def Sys2Proof.Claims.TheArbiterAlternates : Prop :=
  (∀ p (s : State) a rest, s.resetHeld = false → (portUnit p s).linkUp = true → (portUnit p s).sending = none →
    (portUnit p s).transit = a :: rest → (portUnit p s).turn = .transit ∨ (portUnit p s).origin = [] →
    Runs (.transmitStart p) s
      (setPort p { portUnit p s with transit := rest, sending := some (.transit a), turn := .origin } s)) ∧
  (∀ p (s : State) a rest, s.resetHeld = false → (portUnit p s).linkUp = true → (portUnit p s).sending = none →
    (portUnit p s).origin = a :: rest → (portUnit p s).turn = .origin ∨ (portUnit p s).transit = [] →
    Runs (.transmitStart p) s
      (thenReports p
        (setPort p { portUnit p s with origin := rest, sending := some (.origin a), turn := .transit } s))) ∧
  (∀ p (s : State), s.resetHeld = false → (portUnit p s).sending ≠ none ∨ (portUnit p s).linkUp = false ∨
      ((portUnit p s).transit = [] ∧ (portUnit p s).origin = []) → Runs (.transmitStart p) s s) ∧
  ∀ p (s : State), s.resetHeld = false →
    Runs (.transmitDone p) s (setPort p { portUnit p s with sending := none } s)

/-- R20, R21: links and the transmit arbiter; a transmit step without its cause changes nothing (log 2). -/
def Obligations.LinksAndTheArbiter : Prop :=
  Sys2Proof.Claims.LinksGoDownAndComeUp ∧ Sys2Proof.Claims.TheArbiterAlternates

/-! ## Stations and supervision -/

namespace Sys2Proof.Claims

open Sys2Proof.Machine

/-- A counter of the failure of R6's first failing step. -/
def firstFailure (row : FieldRow) (rx : LineRx) (s : State) (failure : Counter) : Prop :=
  (¬ EnvelopeFits rx ∧ failure = .malformed) ∨
    (EnvelopeFits rx ∧ tblGet s.stations rx.source.toNat = none ∧ failure = .unknownStation) ∨
    (EnvelopeFits rx ∧ ∃ st, tblGet s.stations rx.source.toNat = some st ∧
      ((st.role ∉ row.roles ∧ failure = .roleMismatch) ∨
        (st.role ∈ row.roles ∧ ¬ row.fits (bodyOf rx) ∧ failure = .malformed)))

/-- The record of a station after an accepted frame (R13). -/
abbrev heardRecord (st : Station) (s : State) : Station :=
  { st with supervision := .live, deadline := if st.window = 0 then none else some (s.clock.elapsed + st.window) }

/-- The flags of a ride are what the station table derives (R15, R16). -/
abbrev SilenceHandedOn (i : Nat) (t : State) : Prop :=
  (rideAt i t).est.stale = counterSilence i t ∧ (rideAt i t).noControl = controlSilence i t ∧
    (rideAt i t).lane.gateSilence = gateSilence i t

/-- A number LOAD_STATION and LOAD_BOARD can take: 1 to 4094, and not the part's own (R10, R159, log 16). -/
abbrev StationNumberOk (n : Nat) (s : State) : Prop := 1 ≤ n ∧ n ≤ 4094 ∧ n ≠ ownStation s

/-- A silence window after R10's clamps. -/
abbrev windowStored (role : Role) (w : Nat) : Nat :=
  if role = .board ∨ w = 0 then 0 else max 10 (min 3600 w)

/-- A binding that fits its role (R10). -/
abbrev BindingFits (role : Role) (binding : Nat) : Prop :=
  role = .kiosk ∨ (role = .board ∧ binding ≤ 63) ∨ (role ≠ .kiosk ∧ role ≠ .board ∧ binding ≤ 47)

/-- A record just loaded (R10). -/
abbrev freshStation (role : Role) (binding window : Nat) : Station :=
  { role := role, binding := if role = .kiosk then none else some binding, window := windowStored role window,
    supervision := .unheard, deadline := none, baseline := none }

end Sys2Proof.Claims

/-- R5, R6, R7 and Table 1-6: a field frame that fails is counted for its first failing step and has no effect, an
observed one being forwarded and a consumed one dropped; in UNCONFIGURED, and on the park port, it is forwarded. -/
def Obligations.FailedFieldFramesAreCountedOnly : Prop :=
  (∀ row ∈ fieldRows, ∀ rx s failure, Judged rx s → firstFailure row rx s failure →
    Runs (row.command rx) s
      (if row.observed then passedOn row rx (bump failure s) else bump failure s)) ∧
  ∀ row ∈ fieldRows, ∀ rx s, Receives rx.port s → LongEnough (8 + rx.rest.length) →
    s.device = .unconfigured ∨ rx.port = .park →
    Runs (row.command rx) s (placeTransit (otherPort rx.port) (lineFrame row.kind rx) s)

/-- R7, R13, R16: every accepted frame runs; its station is LIVE with its deadline restarted, before its owner takes
it; a station that was SILENT is reported and its ride's silence conditions are handed on. -/
def Obligations.AcceptedFramesBringTheirStationLive : Prop :=
  (∀ row ∈ fieldRows, ∀ rx s st, Accepted row rx s st →
    ∃ t, Runs (row.command rx) s t ∧
      (∃ st', tblGet t.stations rx.source.toNat = some st' ∧
        { st' with baseline := st.baseline } = heardRecord st s) ∧
      ∀ n, n ≠ rx.source.toNat → tblGet t.stations n = tblGet s.stations n) ∧
  (∀ rx st s, st.supervision ≠ .silent →
    heardState rx st s = { s with stations := tblSet s.stations rx.source.toNat (heardRecord st s) }) ∧
  ∀ rx st s, st.supervision = .silent →
    (heardState rx st s).stations = tblSet s.stations rx.source.toNat (heardRecord st s) ∧
      (heardState rx st s).park = (report .stationLive rx.source.toNat (st.binding.getD 0xFFFF) s).park ∧
      (heardState rx st s).reportQueue = (report .stationLive rx.source.toNat (st.binding.getD 0xFFFF) s).reportQueue ∧
      (∀ i, st.binding = some i → rideBound st.role = true → i < s.rides.length →
        SilenceHandedOn i (heardState rx st s)) ∧
      ∀ j, st.binding ≠ some j → rideAt j (heardState rx st s) = rideAt j s

/-- R14, R16: a silence deadline that is reached makes the station SILENT, with its report, and hands on its ride's
silence conditions; one not reached yet does nothing (log 2). -/
def Obligations.SilenceDeadlineMakesAStationSilent : Prop :=
  (∀ n (s : State) st d, s.resetHeld = false → s.device ≠ .unconfigured → tblGet s.stations n = some st →
    st.supervision = .live → st.deadline = some d → d ≤ s.clock.elapsed →
    ∃ t, Runs (.silenceExpiry n) s t ∧
      t.stations = tblSet s.stations n { st with supervision := .silent, deadline := none } ∧
      t.park = (report .stationSilent n (st.binding.getD 0xFFFF) s).park ∧
      t.reportQueue = (report .stationSilent n (st.binding.getD 0xFFFF) s).reportQueue ∧
      (∀ i, st.binding = some i → rideBound st.role = true → i < s.rides.length → SilenceHandedOn i t) ∧
      (∀ j, st.binding ≠ some j → rideAt j t = rideAt j s) ∧ OnlyRidesPortsStations s t) ∧
  ∀ n (s : State) st, tblGet s.stations n = some st →
    (st.supervision ≠ .live ∨ ∀ d, st.deadline = some d → s.clock.elapsed < d) → Runs (.silenceExpiry n) s s

/-- R10, R11, R12: LOAD_STATION creates or replaces a record, UNHEARD; REMOVE_STATION frees one. A record that was
SILENT leaves its ride's silence conditions recomputed; at a replacement that is done before the new record's own
binding is counted in, so that a RELEASE sent at the end of a gate silence does not go to the new record (log 26).
Numbers above 4095 are refused RANGE by log 16. -/
def Obligations.StationTableIsLoadedAndEmptied : Prop :=
  (∀ rx s role, Commanded rx s → 6 ≤ (params rx).length →
    roleOfCode (u8At (params rx) 2) = some role → StationNumberOk (u16At (params rx) 0) s →
    BindingFits role (u8At (params rx) 3) →
    (tblGet s.stations (u16At (params rx) 0)).isSome ∨ s.stations.length < 512 →
    ∃ t u, Runs (.loadStation rx) s t ∧
      t = replied 0x04 rx
        (doneOrClamped (if windowStored role (u16At (params rx) 4) = u16At (params rx) 4 then [] else [4]) .empty) u ∧
      u.stations = tblSet s.stations (u16At (params rx) 0) (freshStation role (u8At (params rx) 3) (u16At (params rx) 4)) ∧
      (∀ old i, tblGet s.stations (u16At (params rx) 0) = some old → old.supervision = .silent →
        old.binding = some i → rideBound old.role = true → i < s.rides.length → SilenceHandedOn i u) ∧
      ((∀ old, tblGet s.stations (u16At (params rx) 0) = some old → old.supervision ≠ .silent) →
        u = { s with stations := u.stations }) ∧
      (∀ old i unbound v, tblGet s.stations (u16At (params rx) 0) = some old → old.supervision = .silent →
        old.role = .mergeGate → old.binding = some i → (rideAt i s).lane.gateSilence = true →
        (rideAt i s).est.stale = counterSilence i s → (rideAt i s).noControl = controlSilence i s →
        unbound = { freshStation role (u8At (params rx) 3) (u16At (params rx) 4) with binding := none } →
        v = { s with stations := tblSet s.stations (u16At (params rx) 0) unbound } →
        gateSilence i v = false →
        u = { testRelease i
            (setRide i { rideAt i s with lane := { (rideAt i s).lane with gateSilence := false } } v) with
          stations := u.stations }) ∧
      OnlyRidesPortsStations s u) ∧
  (∀ rx s, Commanded rx s → 6 ≤ (params rx).length →
    roleOfCode (u8At (params rx) 2) = none ∨ ¬ StationNumberOk (u16At (params rx) 0) s ∨
      (∃ role, roleOfCode (u8At (params rx) 2) = some role ∧ ¬ BindingFits role (u8At (params rx) 3)) →
    Runs (.loadStation rx) s (replied 0x04 rx (refused .range) s)) ∧
  (∀ rx s role, Commanded rx s → 6 ≤ (params rx).length →
    roleOfCode (u8At (params rx) 2) = some role → StationNumberOk (u16At (params rx) 0) s →
    BindingFits role (u8At (params rx) 3) → tblGet s.stations (u16At (params rx) 0) = none → 512 ≤ s.stations.length →
    Runs (.loadStation rx) s (replied 0x04 rx (refused .full) s)) ∧
  (∀ rx s, Commanded rx s → 2 ≤ (params rx).length → (tblGet s.stations (u16At (params rx) 0)).isSome →
    ∃ t u, Runs (.removeStation rx) s t ∧ t = replied 0x05 rx (done .empty) u ∧
      u.stations = tblErase s.stations (u16At (params rx) 0) ∧
      (∀ old i, tblGet s.stations (u16At (params rx) 0) = some old → old.supervision = .silent →
        old.binding = some i → rideBound old.role = true → i < s.rides.length → SilenceHandedOn i u) ∧
      ((∀ old, tblGet s.stations (u16At (params rx) 0) = some old → old.supervision ≠ .silent) →
        u = { s with stations := u.stations }) ∧
      OnlyRidesPortsStations s u) ∧
  ∀ rx s, Commanded rx s → 2 ≤ (params rx).length → tblGet s.stations (u16At (params rx) 0) = none →
    Runs (.removeStation rx) s (replied 0x05 rx (refused .notFound) s)

/-! ## Park time -/

namespace Sys2Proof.Claims

open Sys2Proof.Machine

/-- A well-formed TIME frame of value `v` that the park clock sees (R3, R9). -/
structure TimeFrame (rx : LineRx) (s : State) (v : Nat) : Prop where
  received : Receives .park s
  onPark : rx.port = .park
  long : LongEnough (8 + rx.rest.length)
  inService : s.device ≠ .unconfigured
  envelope : EnvelopeFits rx
  body : (bodyOf rx).length = 4
  value : u32At (bodyOf rx) 0 = v
  inRange : v ≤ 129599

/-- TIME frames are observed: the frame goes on to the field port's transit queue (R9). -/
abbrev timePassedOn (rx : LineRx) (s : State) : State := placeTransit .field (lineFrame 0x31 rx) s

/-- The clock after an acceptance of `v`, with a minute high mark (R27, R32 to R34). -/
abbrev clockAccepted (v mark : Nat) (s : State) : Clock :=
  { s.clock with parkTime := some v, state := .synced, syncMark := some s.clock.elapsed, pendingJump := none,
                 highMark := some mark }

/-- What a change of park time can reach: the clock, and what the calendar and the pass book own. -/
abbrev OnlyTimeAndItsFollowers (s t : State) : Prop :=
  t = { s with clock := t.clock, rides := t.rides, passes := t.passes, tokens := t.tokens, holds := t.holds,
               field := t.field, park := t.park, reportQueue := t.reportQueue, counters := t.counters }

/-- The difference between a value and park time is 30 s or less (R29). -/
abbrev Near (v now : Nat) : Prop := v ≤ now + 30 ∧ now ≤ v + 30

/-- The event of minute `m`, of the run `first` to `last`: every ride's ring takes it, then the pass book (R35, in the
order of log 10). -/
abbrev eventTaken (first last m : Nat) (s : State) : State :=
  expirePasses m ((List.range 48).foldl (fun t i => ringMinute first last m i t) s)

/-- The events of the minutes above the high mark up to a new minute, each once and in increasing order; none when the
new minute is not above the mark (R32, R34). -/
abbrev eventsTaken (mark new : Nat) (s : State) : State :=
  (List.range (new - mark)).foldl (fun t k => eventTaken (mark + 1) new (mark + 1 + k) t) s

/-- CLOCK_STATE for a clock that becomes SYNCED from another state (R27). -/
abbrev syncReported (old : ClockState) (s : State) : State :=
  if old = .synced then s else report .clockState 0 0x0001 s

/-- The saturation report for park time that moves from `now` to `new` (R24). -/
abbrev arrivalReported (now new : Nat) (s : State) : State :=
  if now < 129599 ∧ new = 129599 then report .clockState 0 (0x0100 + clockCode s.clock.state) s else s

/-- An acceptance of `v` at park time `now` with high mark `mark`: the clock, its reports, then the minute events (R27,
in the order of log 24). -/
abbrev accepted (v now mark : Nat) (s : State) : State :=
  eventsTaken mark (v / 60)
    (arrivalReported now v (syncReported s.clock.state { s with clock := clockAccepted v (max mark (v / 60)) s }))

/-- A frame of value `v` at elapsed count `e` confirms a pending jump (R30). -/
abbrev Confirms (v e : Nat) (jump : Option (Nat × Nat)) : Prop :=
  ∃ v1 e1, jump = some (v1, e1) ∧ e1 < e ∧ v + e1 ≤ v1 + e + 5 ∧ v1 + e ≤ v + e1 + 5

end Sys2Proof.Claims

/-- R24, R27, R28, R33: in UNSET a TIME frame is accepted at once whatever its value. That CLOCK_STATE comes before the
saturation report of 129599, and that the latter already carries SYNCED, is the model's reading (log 24). -/
def Obligations.FirstTimeFrameSetsTheClock : Prop :=
  ∀ rx s v, TimeFrame rx s v → s.clock.state = .unset → s.clock.parkTime = none → s.clock.highMark = none →
    Runs (.time rx) s
      (timePassedOn rx
        (if v = 129599 then
          report .clockState 0 0x0101
            (report .clockState 0 0x0001 { s with clock := clockAccepted v (v / 60) s })
        else report .clockState 0 0x0001 { s with clock := clockAccepted v (v / 60) s }))

/-- R27, R29, R30, R31, R32, R34: a TIME frame within 30 s of park time, or one that confirms the pending jump, is
accepted, with its reports and the events of the minutes it crosses (in the order of log 24 and log 9); any other
becomes the pending jump. -/
def Sys2Proof.Claims.TimeFramesStepJumpOrPend : Prop :=
  (∀ rx s v now mark, TimeFrame rx s v → s.clock.state ≠ .unset → s.clock.parkTime = some now →
    s.clock.highMark = some mark → Near v now ∨ Confirms v s.clock.elapsed s.clock.pendingJump →
    ∃ t, Runs (.time rx) s t ∧ t.clock = clockAccepted v (max mark (v / 60)) s ∧ OnlyTimeAndItsFollowers s t) ∧
  (∀ rx s v now mark, TimeFrame rx s v → s.clock.state ≠ .unset → s.clock.parkTime = some now →
    s.clock.highMark = some mark → Near v now → Runs (.time rx) s (timePassedOn rx (accepted v now mark s))) ∧
  (∀ rx s v now mark, TimeFrame rx s v → s.clock.state ≠ .unset → s.clock.parkTime = some now →
    s.clock.highMark = some mark → ¬ Near v now → Confirms v s.clock.elapsed s.clock.pendingJump →
    Runs (.time rx) s (timePassedOn rx (report .clockJump 0 (v / 60) (accepted v now mark s)))) ∧
  ∀ rx s v now, TimeFrame rx s v → s.clock.state ≠ .unset → s.clock.parkTime = some now → ¬ Near v now →
    ¬ Confirms v s.clock.elapsed s.clock.pendingJump →
    Runs (.time rx) s
      (timePassedOn rx { s with clock := { s.clock with pendingJump := some (v, s.clock.elapsed) } })

/-- R35: the calendar and the pass book act on separate state and each takes the event whole: what an event makes of a
ride's ring is what that ring makes of it (R89, R90), and what it makes of the passes is what the pass book makes of
them (R113). -/
def Sys2Proof.Claims.MinuteEventsReachEveryRingAndPass : Prop :=
  ∀ first last m (s : State),
    (∀ i ≤ 47, rideAt i (eventTaken first last m s) = rideAt i (ringMinute first last m i s)) ∧
    (∀ i, 47 < i → rideAt i (eventTaken first last m s) = rideAt i s) ∧
    (eventTaken first last m s).passes = (expirePasses m s).passes ∧
    (eventTaken first last m s).park = (expirePasses m s).park ∧
    (eventTaken first last m s).counters = (expirePasses m s).counters ∧
    eventTaken first last m s =
      { s with rides := (eventTaken first last m s).rides, passes := (eventTaken first last m s).passes,
               tokens := (eventTaken first last m s).tokens, holds := (eventTaken first last m s).holds,
               park := (eventTaken first last m s).park, counters := (eventTaken first last m s).counters }

/-- R27, R29 to R32, R34, R35: TIME frames after the first, and the minute events they raise; the order of the effects
is that of logs 9, 10 and 24. -/
def Obligations.TimeFramesStepJumpOrPend : Prop :=
  Sys2Proof.Claims.TimeFramesStepJumpOrPend ∧ Sys2Proof.Claims.MinuteEventsReachEveryRingAndPass

/-- R23, R24, R32: a second raises the elapsed count by one and park time with it, each to its bound; park time that
arrives at 129599 is reported, and park time that enters a minute above the high mark raises the events up to it (in the
order of logs 10 and 24). That a full count stops both is the model's reading (log 8). -/
def Obligations.SecondsAdvanceBothCounts : Prop :=
  (∀ s : State, s.resetHeld = false → s.clock.elapsed < 4294967295 →
    ∃ t, Runs .secondTick s t ∧ t.clock.elapsed = s.clock.elapsed + 1 ∧
      t.clock.parkTime = s.clock.parkTime.map (fun p => if p < 129599 then p + 1 else p) ∧
      t.clock.state = s.clock.state ∧ t.clock.syncMark = s.clock.syncMark ∧
      t.clock.pendingJump = s.clock.pendingJump ∧ OnlyTimeAndItsFollowers s t) ∧
  (∀ s : State, s.resetHeld = false → s.clock.elapsed = 4294967295 → Runs .secondTick s s) ∧
  (∀ s : State, s.resetHeld = false → s.clock.elapsed < 4294967295 →
    s.clock.parkTime = none ∨ s.clock.parkTime = some 129599 →
    Runs .secondTick s { s with clock := { s.clock with elapsed := s.clock.elapsed + 1 } }) ∧
  ∀ (s : State) p mark, s.resetHeld = false → s.clock.elapsed < 4294967295 → s.clock.parkTime = some p →
    p < 129599 → s.clock.highMark = some mark →
    Runs .secondTick s
      (eventsTaken mark ((p + 1) / 60)
        (arrivalReported p (p + 1)
          { s with clock := { s.clock with elapsed := s.clock.elapsed + 1, parkTime := some (p + 1),
                                           highMark := some (max mark ((p + 1) / 60)) } }))

/-- R25: SYNCED becomes FREE 120 s after the sync mark and FREE becomes ADRIFT 1800 s after it, each with its report; a
clock not so far on, or in another state, is left as it is (log 2). -/
def Obligations.ClockGoesFreeAndAdrift : Prop :=
  (∀ (s : State) m, s.resetHeld = false → s.clock.syncMark = some m → s.clock.state = .synced →
    m + 120 ≤ s.clock.elapsed →
    Runs .clockFree s (report .clockState 0 0x0002 { s with clock := { s.clock with state := .free } })) ∧
  (∀ (s : State) m, s.resetHeld = false → s.clock.syncMark = some m → s.clock.state = .free →
    m + 1800 ≤ s.clock.elapsed →
    Runs .clockAdrift s (report .clockState 0 0x0003 { s with clock := { s.clock with state := .adrift } })) ∧
  (∀ s : State, s.clock.state ≠ .synced ∨ (∀ m, s.clock.syncMark = some m → s.clock.elapsed < m + 120) →
    Runs .clockFree s s) ∧
  ∀ s : State, s.clock.state ≠ .free ∨ (∀ m, s.clock.syncMark = some m → s.clock.elapsed < m + 1800) →
    Runs .clockAdrift s s

/-! ## Rides -/

namespace Sys2Proof.Claims

open Sys2Proof.Machine

/-- An accepted frame of a station bound to a configured ride, whose configuration is `c`. -/
structure AboutRide (row : FieldRow) (rx : LineRx) (s : State) (st : Station) (i : Nat) (c : RideCfg) : Prop where
  accepted : Accepted row rx s st
  bound : st.binding = some i
  inRange : i ≤ 47
  known : (rideAt i s).cfg = some c

/-- An accepted frame whose station is bound to no ride, or to one that is unconfigured. -/
abbrev BoundToNone (st : Station) (s : State) : Prop := ∀ i, st.binding = some i → 47 < i ∨ (rideAt i s).cfg = none

/-- A command with its parameter bytes whose first names a configured ride, whose configuration is `c`. -/
structure NamesRide (rx : MgmtRx) (s : State) (bytes i : Nat) (c : RideCfg) : Prop where
  commanded : Commanded rx s
  long : bytes ≤ (params rx).length
  index : u8At (params rx) 0 = i
  inRange : i ≤ 47
  known : (rideAt i s).cfg = some c

/-- The ride state that a RIDESTATE code asks for (Table 1-2): UP, DOWN, HOLD. -/
abbrev Asks (code : Nat) (state : RideState) : Prop :=
  (code = 1 ∧ state = .opened) ∨ (code = 2 ∧ state = .down) ∨ (code = 3 ∧ state = .held)

/-- The outage list of a ride that moves to a state (R50, R51). -/
abbrev outagesAfter (old new : RideState) (now : Nat) (os : List Outage) : List Outage :=
  if new = .down then withOutage now os else if old = .down then withOutageClosed now os else os

/-- What of a ride's record a change of ride state never touches (R48): configuration, NO_CONTROL, Q, totals, ignored
count, recent offers, return occupancy, gate silence, STALE. -/
abbrev RideKept (a b : Ride) : Prop :=
  b.cfg = a.cfg ∧ b.noControl = a.noControl ∧ b.q = a.q ∧ b.totals = a.totals ∧ b.ignored = a.ignored ∧
    b.recent = a.recent ∧ b.lane.occupancy = a.lane.occupancy ∧ b.lane.gateSilence = a.lane.gateSilence ∧
    b.est.stale = a.est.stale

/-- The estimate's values but the posted wait and the first posting flag. -/
abbrev ThroughputKept (a b : Ride) : Prop :=
  b.est.throughput = a.est.throughput ∧ b.est.mark = a.est.mark ∧ b.est.carry = a.est.carry ∧
    b.est.standbyRate = a.est.standbyRate ∧ b.est.rawWait = a.est.rawWait

/-- The report of a change of ride state (R48). -/
abbrev changeReported (i : Nat) (old new : RideState) (s : State) : State :=
  report .rideState i (256 * rideCode old + rideCode new) s

/-- The reports of a change of ride state: an entry to DOWN on a full outage list reports the merge first (R48, R52). -/
abbrev entryReported (i : Nat) (old new : RideState) (os : List Outage) (s : State) : State :=
  changeReported i old new
    (if new = .down ∧ 4 ≤ os.length then report .outageMerged i ((os.map (fun o => o.start)).headD 0 / 60) s else s)

/-- The release condition is tested when a ride enters OPEN (R48, R157). -/
abbrev entryTested (i : Nat) (new : RideState) (s : State) : State := if new = .opened then testRelease i s else s

/-- The hold counts of the tokens of holds that have ended, lowered in order; a record left empty is freed (R138,
R139). -/
abbrev holdsLowered (ended : List (Nat × Hold)) (s : State) : State :=
  ended.foldl (fun t e => updToken e.2.token (fun r => { r with holds := r.holds - 1 }) t) s

/-- The candidate (R77). -/
abbrev postedCandidate (step wait : Nat) : Nat :=
  min (if step = 10 then 990 else if step = 5 then 995 else 999) ((wait + step - 1) / step * step)

/-- A delta of a counter (R55). -/
abbrev deltaOf (new baseline : Nat) : Nat := (new + 65536 - baseline) % 65536

/-- The state after a COUNT has moved its station's baseline (R54, R55). -/
abbrev baselined (rx : LineRx) (st : Station) (s : State) : State :=
  { heardState rx st s with
    stations := tblSet s.stations rx.source.toNat
      { heardRecord st s with baseline := some (u16At (bodyOf rx) 0) } }

/-- Q set to a value; the estimate follows a change (R56, R57, R59). -/
abbrev withQueue (v : Nat) (r : Ride) : Ride := if r.q = v then r else reestimate { r with q := v }

/-- R set to a value; the estimate follows a passage between 0 and above 0 (R146). -/
abbrev withOccupancy (v : Nat) (r : Ride) : Ride :=
  if (r.lane.occupancy = 0) ↔ (v = 0) then { r with lane := { r.lane with occupancy := v } }
  else reestimate { r with lane := { r.lane with occupancy := v } }

/-- A report made only when a bound was met. -/
abbrev clampReported (i excess : Nat) (s : State) : State := if 0 < excess then report .queueClamp i excess s else s

end Sys2Proof.Claims

/-- R50, R51, R52: a new outage starts at the present time, never before the end of the last; on a full list the two
earliest are merged first; a closed outage never ends before its start. -/
def Sys2Proof.Claims.OutagesOpenCloseAndMerge : Prop :=
  (∀ now, withOutage now [] = [{ start := now, stop := none }]) ∧
  (∀ now os a e, os.length < 3 →
    withOutage now (os ++ [{ start := a, stop := some e }]) =
      os ++ [{ start := a, stop := some e }, { start := max now e, stop := none }]) ∧
  (∀ now a b c d ea eb ec ed,
    withOutage now [{ start := a, stop := some ea }, { start := b, stop := some eb }, { start := c, stop := some ec },
        { start := d, stop := some ed }] =
      [{ start := a, stop := some (max ea eb) }, { start := c, stop := some ec }, { start := d, stop := some ed },
        { start := max now ed, stop := none }]) ∧
  ∀ now os a, (∀ o ∈ os, o.stop ≠ none) →
    withOutageClosed now (os ++ [{ start := a, stop := none }]) = os ++ [{ start := a, stop := some (max now a) }]

/-- R44, R45, R46, R48, R52, R78, R79, R157: a RIDESTATE moves an OPEN, HELD or DOWN ride, opens or closes its outage
first, and is reported, after OUTAGE_MERGED on a full outage list; an entry to OPEN or HELD makes a posting run, and one
to OPEN tests the release condition. It changes nothing when the ride is in that state already, is counted when the ride
is CLOSED, and has no effect for an unconfigured ride. The frame goes on in each case. -/
def Sys2Proof.Claims.RideStateFramesMoveTheRide : Prop :=
  (∀ rx s st i c new, AboutRide rideStateRow rx s st i c → Asks (u8At (bodyOf rx) 0) new →
    (rideAt i s).state ≠ .closed → (rideAt i s).state ≠ new →
    ∃ u, Runs (.rideState rx) s (passedOn rideStateRow rx u) ∧ (rideAt i u).state = new ∧
      (rideAt i u).outages = outagesAfter (rideAt i s).state new (nowSecond s) (rideAt i s).outages ∧
      RideKept (rideAt i (heardState rx st s)) (rideAt i u) ∧
      ThroughputKept (rideAt i (heardState rx st s)) (rideAt i u) ∧ (rideAt i u).ring = (rideAt i s).ring ∧
      (rideAt i u).est.posted =
        (if new = .down then (rideAt i (heardState rx st s)).est.posted
         else (postingRun { rideAt i (heardState rx st s) with state := new }).est.posted) ∧
      (rideAt i u).est.firstPosting =
        (if new = .down then (rideAt i (heardState rx st s)).est.firstPosting
         else (postingRun { rideAt i (heardState rx st s) with state := new }).est.firstPosting) ∧
      u = entryTested i new
        (setRide i { rideAt i u with lane := (rideAt i (heardState rx st s)).lane }
          (entryReported i (rideAt i s).state new (rideAt i s).outages (heardState rx st s))) ∧
      u.park = (entryReported i (rideAt i s).state new (rideAt i s).outages (heardState rx st s)).park ∧
      u.reportQueue =
        (entryReported i (rideAt i s).state new (rideAt i s).outages (heardState rx st s)).reportQueue ∧
      OtherRidesKept i (heardState rx st s) u ∧ OnlyRidesAndPorts (heardState rx st s) u) ∧
  (∀ rx s st i c new, AboutRide rideStateRow rx s st i c → Asks (u8At (bodyOf rx) 0) new →
    (rideAt i s).state = new → Runs (.rideState rx) s (passedOn rideStateRow rx (heardState rx st s))) ∧
  (∀ rx s st i c, AboutRide rideStateRow rx s st i c → (rideAt i s).state = .closed →
    Runs (.rideState rx) s
      (passedOn rideStateRow rx
        (setRide i { rideAt i (heardState rx st s) with ignored := min 65535 ((rideAt i s).ignored + 1) }
          (heardState rx st s)))) ∧
  ∀ rx s st, Accepted rideStateRow rx s st → BoundToNone st s →
    Runs (.rideState rx) s (passedOn rideStateRow rx (heardState rx st s))

/-- R44 to R46, R48, R50 to R52, R78, R79, R157: RIDESTATE frames, and the outages they open, close and merge. -/
def Obligations.RideStateFramesMoveTheRide : Prop :=
  Sys2Proof.Claims.OutagesOpenCloseAndMerge ∧ Sys2Proof.Claims.RideStateFramesMoveTheRide

/-- R54 to R57, R148: a COUNT moves its station's baseline; in DAY, for a configured ride, a delta of 1 to 2000 is
applied to Q, the day total and, for a boarding counter, the merge counter, and a larger one is a counter restart. -/
def Obligations.CountFramesMoveTheQueue : Prop :=
  (∀ rx s st, Accepted countRow rx s st →
    st.baseline = none ∨ st.baseline = some (u16At (bodyOf rx) 0) ∨ s.device ≠ .day ∨ BoundToNone st s →
    Runs (.count rx) s (passedOn countRow rx (baselined rx st s))) ∧
  (∀ rx s st i c old, AboutRide countRow rx s st i c → s.device = .day → st.baseline = some old →
    2000 < deltaOf (u16At (bodyOf rx) 0) old →
    Runs (.count rx) s
      (passedOn countRow rx
        (report .counterRestart rx.source.toNat (u16At (bodyOf rx) 0)
          (bump .counterRestarts (baselined rx st s))))) ∧
  (∀ rx s st i c old delta, AboutRide countRow rx s st i c → s.device = .day → st.baseline = some old →
    st.role = .entryCounter → deltaOf (u16At (bodyOf rx) 0) old = delta → 1 ≤ delta → delta ≤ 2000 →
    ∀ r r', rideAt i (heardState rx st s) = r →
      r' = withQueue (min 9999 (r.q + delta))
        { r with totals := { r.totals with entries := r.totals.entries + BitVec.ofNat 32 delta } } →
      Runs (.count rx) s
        (passedOn countRow rx (clampReported i (r.q + delta - 9999) (setRide i r' (baselined rx st s))))) ∧
  ∀ rx s st i c old delta, AboutRide countRow rx s st i c → s.device = .day → st.baseline = some old →
    st.role = .boardCounter → deltaOf (u16At (bodyOf rx) 0) old = delta → 1 ≤ delta → delta ≤ 2000 →
    ∀ r r', rideAt i (heardState rx st s) = r →
      r' = withQueue (r.q - delta)
        { r with totals := { r.totals with boardings := r.totals.boardings + BitVec.ofNat 32 delta } } →
      Runs (.count rx) s
        (passedOn countRow rx
          (testRelease i
            (setRide i { r' with lane := { r'.lane with mergeCounter := min 255 (r'.lane.mergeCounter + delta) } }
              (clampReported i (delta - r.q) (setRide i r' (baselined rx st s))))))

/-- R43, R48, R73, R79, R157: OPEN_RIDE moves a CLOSED ride to OPEN in DAY, seeds T, recomputes the estimate and posts
it, unless the ride is STALE, and tests the release condition; in other states, and for a class of rate 0, it is refused. -/
def Sys2Proof.Claims.OpenRideSeedsTheEstimate : Prop :=
  (∀ rx s i c n, NamesRide rx s 1 i c → s.device = .day → (rideAt i s).state = .closed →
    classRate c.classNo s = n → n ≠ 0 →
    ∃ u, Runs (.openRide rx) s (replied 0x0E rx (done .empty) u) ∧ (rideAt i u).state = .opened ∧
      (rideAt i u).est.throughput = n ∧ (rideAt i u).est.mark = none ∧ (rideAt i u).est.carry = 0 ∧
      (rideAt i u).est.standbyRate = standbyRateOf n c.threshold c.batch (rideAt i s).lane.occupancy ∧
      (rideAt i u).est.rawWait = rawWaitOf c.queueBase (rideAt i s).q (rideAt i u).est.standbyRate ∧
      (rideAt i u).est.posted = (if (rideAt i s).est.stale then (rideAt i s).est.posted
        else postedCandidate c.displayStep (rideAt i u).est.rawWait) ∧
      (rideAt i u).est.firstPosting = (rideAt i s).est.stale ∧ RideKept (rideAt i s) (rideAt i u) ∧
      (rideAt i u).outages = (rideAt i s).outages ∧ (rideAt i u).ring = (rideAt i s).ring ∧
      u = testRelease i
        (setRide i { rideAt i u with lane := (rideAt i s).lane } (changeReported i .closed .opened s)) ∧
      u.park = (changeReported i .closed .opened s).park ∧
      u.reportQueue = (changeReported i .closed .opened s).reportQueue ∧
      OtherRidesKept i s u ∧ OnlyRidesAndPorts s u) ∧
  (∀ rx s i c, NamesRide rx s 1 i c → s.device ≠ .day ∨ (rideAt i s).state ≠ .closed →
    Runs (.openRide rx) s (replied 0x0E rx (refused .wrongState) s)) ∧
  ∀ rx s i c, NamesRide rx s 1 i c → s.device = .day → (rideAt i s).state = .closed → classRate c.classNo s = 0 →
    Runs (.openRide rx) s (replied 0x0E rx (refused .incomplete) s)

/-- R47, R48, R138: CLOSE_RIDE closes an OPEN, HELD or DOWN ride in every device state, closes its open outage, reports
the change and removes the ride's holds, giving their room back and lowering their tokens' hold counts; a CLOSED ride
is left as it is. That a window keeps its capacity, so that the whole party is freed, is the model's choice (log 25). -/
def Sys2Proof.Claims.CloseRideReleasesItsHolds : Prop :=
  (∀ rx s i c, NamesRide rx s 1 i c → (rideAt i s).state = .closed →
    Runs (.closeRide rx) s (replied 0x0F rx (done .empty) s)) ∧
  ∀ rx s i c, NamesRide rx s 1 i c → (rideAt i s).state ≠ .closed → tblWf s.holds →
    ∃ u, Runs (.closeRide rx) s (replied 0x0F rx (done .empty) u) ∧ (rideAt i u).state = .closed ∧
      (rideAt i u).outages = outagesAfter (rideAt i s).state .closed (nowSecond s) (rideAt i s).outages ∧
      (rideAt i u).est = (rideAt i s).est ∧ (rideAt i u).lane = (rideAt i s).lane ∧
      RideKept (rideAt i s) (rideAt i u) ∧ u.holds = s.holds.filter (fun e => e.2.ride ≠ i) ∧
      (rideAt i u).ring.map (fun w => (w.start, w.capacity, w.issued, w.held)) =
        (rideAt i s).ring.map (fun w => (w.start, w.capacity, w.issued, w.held - guestsHeld i w.start s)) ∧
      u.park = (changeReported i (rideAt i s).state .closed s).park ∧
      u.reportQueue = (changeReported i (rideAt i s).state .closed s).reportQueue ∧
      u.counters = (changeReported i (rideAt i s).state .closed s).counters ∧
      u.tokens = (holdsLowered (s.holds.filter (fun e => e.2.ride = i)) s).tokens ∧ OtherRidesKept i s u ∧
      u = { s with rides := u.rides, holds := u.holds, tokens := u.tokens, park := u.park,
                   reportQueue := u.reportQueue, counters := u.counters }

/-- R43, R47, R48, R73, R79, R138, R157: OPEN_RIDE and CLOSE_RIDE; a window keeps its capacity when the holds of a ride
are released (log 25). -/
def Obligations.RidesOpenAndClose : Prop :=
  Sys2Proof.Claims.OpenRideSeedsTheEstimate ∧ Sys2Proof.Claims.CloseRideReleasesItsHolds

/-- R59, R147: SET_QUEUE sets Q and R, each clamped to 9999 and left as it is by 0FFFFH; the estimate follows, and a
return value tests the release condition. That the estimator takes the change of Q before that of R is the model's
reading (log 30). -/
def Obligations.SetQueueSetsBothOccupancies : Prop :=
  ∀ rx s i c q r, NamesRide rx s 5 i c → u16At (params rx) 1 = q → u16At (params rx) 3 = r →
    ∀ u, u = (if q = 0xFFFF then s else setRide i (withQueue (min 9999 q) (rideAt i s)) s) →
      Runs (.setQueue rx) s
        (replied 0x10 rx
          (doneOrClamped
            ((if q = 0xFFFF ∨ q ≤ 9999 then [] else [2]) ++ (if r = 0xFFFF ∨ r ≤ 9999 then [] else [3])) .empty)
          (if r = 0xFFFF then u else testRelease i (setRide i (withOccupancy (min 9999 r) (rideAt i u)) u)))

/-! ## Configuration -/

namespace Sys2Proof.Claims

open Sys2Proof.Machine

/-- A LOAD_RIDE with its fifteen parameter bytes, and the ride index they name. -/
structure LoadsRide (rx : MgmtRx) (s : State) (i : Nat) : Prop where
  commanded : Commanded rx s
  long : 15 ≤ (params rx).length
  index : u8At (params rx) 0 = i
  inRange : i ≤ 47

/-- The class number and the window length a LOAD_RIDE carries (Table 10-2). -/
abbrev loadedClass (rx : MgmtRx) : Nat := u8At (params rx) 1
/-- The window length. -/
abbrev loadedLength (rx : MgmtRx) : Nat := u8At (params rx) 2
/-- The display step. -/
abbrev loadedStep (rx : MgmtRx) : Nat := u8At (params rx) 7

/-- The fields that are checked are in their sets (R38). -/
abbrev FieldsCheck (rx : MgmtRx) : Prop :=
  loadedClass rx ≤ 15 ∧ loadedLength rx ∈ [5, 10, 15, 20, 30] ∧ loadedStep rx ∈ [1, 5, 10]

/-- The configuration stored: each clamped field at the nearer bound of its range, the pass share 0 when K is 0 (R39,
Table 3-1). -/
abbrev storedFields (rx : MgmtRx) : RideCfg :=
  { classNo := loadedClass rx, windowLength := loadedLength rx,
    passShare := if u8At (params rx) 10 = 0 then 0 else min 50 (u8At (params rx) 3),
    minLead := min 120 (u8At (params rx) 4), earlyGrace := min 30 (u8At (params rx) 5),
    lateGrace := min 60 (u8At (params rx) 6), displayStep := loadedStep rx, queueBase := min 30 (u8At (params rx) 8),
    threshold := max 1 (min 64 (u8At (params rx) 9)), batch := min 16 (u8At (params rx) 10),
    spacing := min 60 (u8At (params rx) 11), burst := max 1 (min 16 (u8At (params rx) 12)),
    interval := max 5 (min 300 (u16At (params rx) 13)) }

/-- The positions, in Table 10-2, of the fields that R39 adjusted. -/
abbrev adjustedFields (rx : MgmtRx) : List Nat :=
  [(4, u8At (params rx) 3, (storedFields rx).passShare), (5, u8At (params rx) 4, (storedFields rx).minLead),
   (6, u8At (params rx) 5, (storedFields rx).earlyGrace), (7, u8At (params rx) 6, (storedFields rx).lateGrace),
   (9, u8At (params rx) 8, (storedFields rx).queueBase), (10, u8At (params rx) 9, (storedFields rx).threshold),
   (11, u8At (params rx) 10, (storedFields rx).batch), (12, u8At (params rx) 11, (storedFields rx).spacing),
   (13, u8At (params rx) 12, (storedFields rx).burst),
   (14, u16At (params rx) 13, (storedFields rx).interval)].filterMap
    (fun e => if e.2.1 = e.2.2 then none else some e.1)

/-- The last check of R38. -/
abbrev KeepsShapeInDay (rx : MgmtRx) (i : Nat) (s : State) : Prop :=
  s.device = .day → (rideAt i s).state ≠ .closed → ∀ old, (rideAt i s).cfg = some old →
    old.classNo = loadedClass rx ∧ old.windowLength = loadedLength rx

/-- A window with nothing held (R84, R86). -/
abbrev freshWindow (start capacity issued : Nat) : Window :=
  { start := start, capacity := min 2000 (max capacity issued), issued := issued, held := 0,
    mark := decide (1 ≤ min 2000 (max capacity issued) - issued) }

/-- Twenty-four windows from the one that contains a minute (R84). -/
abbrev freshRing (minute length capacity : Nat) (issuedAt : Nat → Nat) : List Window :=
  (List.range 24).map (fun p =>
    freshWindow (minute / length * length + p * length) capacity (issuedAt (minute / length * length + p * length)))

/-- The computed capacity (R86). -/
abbrev capacityOf (rate share length : Nat) : Nat := min 2000 (rate * share * length / 6000)

/-- The guests of a ride's live passes granted into a window (R91). -/
abbrev guestsGranted (i start length : Nat) (s : State) : Nat :=
  ((s.passes.filter (fun e => e.2.ride = i ∧ e.2.start = some start ∧ e.2.length = length)).map
    (fun e => e.2.party)).sum

/-- A future window after a recomputation of capacity (R87). -/
abbrev recomputedWindow (minute capacity : Nat) (w : Window) : Window :=
  if minute < w.start then
    { w with capacity := min 2000 (max capacity (w.issued + w.held)),
             mark := decide (1 ≤ min 2000 (max capacity (w.issued + w.held)) - w.issued - w.held) }
  else w

end Sys2Proof.Claims

/-- R38: the checks of LOAD_RIDE in their order; a refused command leaves everything as it was. -/
def Sys2Proof.Claims.LoadRideIsChecked : Prop :=
  (∀ rx s, Commanded rx s → 15 ≤ (params rx).length → 47 < u8At (params rx) 0 ∨ ¬ FieldsCheck rx →
    Runs (.loadRide rx) s (replied 0x06 rx (refused .range) s)) ∧
  (∀ rx s i, LoadsRide rx s i → FieldsCheck rx → classRate (loadedClass rx) s = 0 →
    Runs (.loadRide rx) s (replied 0x06 rx (refused .incomplete) s)) ∧
  ∀ rx s i, LoadsRide rx s i → FieldsCheck rx → classRate (loadedClass rx) s ≠ 0 → ¬ KeepsShapeInDay rx i s →
    Runs (.loadRide rx) s (replied 0x06 rx (refused .wrongState) s)

/-- R39, R40, R66, R84: a LOAD_RIDE taken for an unconfigured ride configures it, CLOSED, with its estimate computed
from Q = 0 and the return lane's R; in DAY its ring is built at once. -/
def Sys2Proof.Claims.LoadRideConfiguresARide : Prop :=
  ∀ rx s i n rate, LoadsRide rx s i → FieldsCheck rx → classRate (loadedClass rx) s = n → n ≠ 0 →
    (rideAt i s).cfg = none → i < s.rides.length →
    rate = standbyRateOf n (storedFields rx).threshold (storedFields rx).batch (rideAt i s).lane.occupancy →
    Runs (.loadRide rx) s
      (replied 0x06 rx (doneOrClamped (adjustedFields rx) .empty)
        (setRide i
          { cfg := some (storedFields rx), state := .closed, noControl := controlSilence i s, outages := [], q := 0,
            totals := { entries := 0, boardings := 0, admissions := 0, granted := 0, seats := 0 }, ignored := 0,
            est := { throughput := n, mark := none, carry := 0, standbyRate := rate,
                     rawWait := rawWaitOf (storedFields rx).queueBase 0 rate, posted := 0,
                     stale := counterSilence i s, firstPosting := false },
            ring := if s.device = .day then
                freshRing (nowMinute s) (loadedLength rx)
                  (capacityOf n (storedFields rx).passShare (loadedLength rx)) (fun _ => 0)
              else (rideAt i s).ring,
            recent := (rideAt i s).recent, lane := (rideAt i s).lane } s))

/-- R38 to R40, R66, R84: LOAD_RIDE is checked, and configures an unconfigured ride. -/
def Obligations.LoadRideConfiguresARide : Prop :=
  Sys2Proof.Claims.LoadRideIsChecked ∧ Sys2Proof.Claims.LoadRideConfiguresARide

/-- R40, R41, R72, R76, R78, R81, R87, R91, R155: a LOAD_RIDE taken for a configured ride replaces its configuration
and nothing else that R40 keeps; each block takes the change of the fields it depends on: the estimate is computed and
posted again, the ring recomputed or rebuilt, and a changed M or K tests the release condition (in the order of log 15;
log 12 says when capacities are computed again). -/
def Obligations.LoadRideHandsItsChangesOn : Prop :=
  ∀ rx s i old n, LoadsRide rx s i → FieldsCheck rx → classRate (loadedClass rx) s = n → n ≠ 0 →
    KeepsShapeInDay rx i s → (rideAt i s).cfg = some old →
    ∃ u, Runs (.loadRide rx) s (replied 0x06 rx (doneOrClamped (adjustedFields rx) .empty) u) ∧
      (rideAt i u).cfg = some (storedFields rx) ∧
      (rideAt i u).state = (rideAt i s).state ∧ (rideAt i u).noControl = (rideAt i s).noControl ∧
      (rideAt i u).outages = (rideAt i s).outages ∧ (rideAt i u).q = (rideAt i s).q ∧
      (rideAt i u).totals = (rideAt i s).totals ∧ (rideAt i u).ignored = (rideAt i s).ignored ∧
      (rideAt i u).recent = (rideAt i s).recent ∧
      (rideAt i u).lane.occupancy = (rideAt i s).lane.occupancy ∧
      (rideAt i u).lane.gateSilence = (rideAt i s).lane.gateSilence ∧
      (old.threshold = (storedFields rx).threshold → old.batch = (storedFields rx).batch →
        (rideAt i u).lane = (rideAt i s).lane ∧ u.field = s.field ∧ u.counters = s.counters) ∧
      (rideAt i u).est.throughput =
        (if old.classNo = loadedClass rx then (rideAt i s).est.throughput
         else max (n / 4) (min (3 * n / 2) (rideAt i s).est.throughput)) ∧
      (old.threshold ≠ (storedFields rx).threshold ∨ old.batch ≠ (storedFields rx).batch ∨
        old.queueBase ≠ (storedFields rx).queueBase ∨ old.displayStep ≠ loadedStep rx ∨
        (rideAt i u).est.throughput ≠ (rideAt i s).est.throughput →
        (rideAt i u).est.standbyRate =
          standbyRateOf (rideAt i u).est.throughput (storedFields rx).threshold (storedFields rx).batch
            (rideAt i s).lane.occupancy ∧
        (rideAt i u).est.rawWait =
          rawWaitOf (storedFields rx).queueBase (rideAt i s).q (rideAt i u).est.standbyRate) ∧
      (old.displayStep ≠ loadedStep rx →
        (rideAt i u).est.posted = postedCandidate (loadedStep rx) (rideAt i u).est.rawWait ∧
        (rideAt i u).est.firstPosting = (rideAt i s).est.firstPosting) ∧
      (old.displayStep = loadedStep rx →
        old.threshold ≠ (storedFields rx).threshold ∨ old.batch ≠ (storedFields rx).batch ∨
          old.queueBase ≠ (storedFields rx).queueBase ∨
          (rideAt i u).est.throughput ≠ (rideAt i s).est.throughput →
        (rideAt i u).est =
          (postingRun { rideAt i s with
            cfg := some (storedFields rx),
            est := { (rideAt i s).est with
              throughput := (rideAt i u).est.throughput, standbyRate := (rideAt i u).est.standbyRate,
              rawWait := (rideAt i u).est.rawWait } }).est) ∧
      ((rideAt i u).est.mark = (rideAt i s).est.mark ∧ (rideAt i u).est.carry = (rideAt i s).est.carry ∧
        (rideAt i u).est.stale = (rideAt i s).est.stale) ∧
      (old.threshold ≠ (storedFields rx).threshold ∨ old.batch ≠ (storedFields rx).batch →
        u = testRelease i (setRide i { rideAt i u with lane := (rideAt i s).lane } s)) ∧
      (old.classNo = loadedClass rx → old.threshold = (storedFields rx).threshold →
        old.batch = (storedFields rx).batch → old.queueBase = (storedFields rx).queueBase →
        old.displayStep = loadedStep rx → (rideAt i u).est = (rideAt i s).est) ∧
      (rideAt i u).ring =
        (if (rideAt i s).ring = [] then []
         else if old.windowLength ≠ loadedLength rx then
           freshRing (nowMinute s) (loadedLength rx) (capacityOf n (storedFields rx).passShare (loadedLength rx))
             (fun start => guestsGranted i start (loadedLength rx) s)
         else if classRate old.classNo s ≠ n ∨ old.passShare ≠ (storedFields rx).passShare then
           (rideAt i s).ring.map
             (recomputedWindow (nowMinute s) (capacityOf n (storedFields rx).passShare (loadedLength rx)))
         else (rideAt i s).ring) ∧
      OtherRidesKept i s u ∧ u = { s with rides := u.rides, field := u.field, counters := u.counters }

/-- R42, R184: UNLOAD_RIDE returns a CLOSED ride without live passes to unconfigured, block by block; NO_CONTROL, STALE
and gate silence go on following the station table. An OPEN, HELD or DOWN ride, or one with a live pass, is refused. -/
def Obligations.UnloadRideClearsTheRecord : Prop :=
  (∀ rx s i c, NamesRide rx s 1 i c → (rideAt i s).state = .closed → (∀ e ∈ s.passes, e.2.ride ≠ i) →
    Runs (.unloadRide rx) s
      (replied 0x07 rx (done .empty)
        (setRide i
          { cfg := none, state := .closed, noControl := (rideAt i s).noControl, outages := [], q := 0,
            totals := { entries := 0, boardings := 0, admissions := 0, granted := 0, seats := 0 }, ignored := 0,
            est := { throughput := 0, mark := none, carry := 0, standbyRate := 1, rawWait := 0, posted := 0,
                     stale := (rideAt i s).est.stale, firstPosting := false },
            ring := [], recent := [],
            lane := { occupancy := 0, mergeCounter := 0, outstanding := none,
                      gateSilence := (rideAt i s).lane.gateSilence } } s))) ∧
  ∀ rx s i c, NamesRide rx s 1 i c → (rideAt i s).state ≠ .closed ∨ (∃ e ∈ s.passes, e.2.ride = i) →
    Runs (.unloadRide rx) s (replied 0x07 rx (refused .wrongState) s)

/-- R64, R65, R72: LOAD_CLASS stores a rate, clamped; a changed one is handed on to each configured ride of the class,
whose T is held in the new band and whose future windows are recomputed; every other ride is left as it is. -/
def Obligations.LoadClassHandsTheRateOn : Prop :=
  (∀ rx s, Commanded rx s → 3 ≤ (params rx).length → 15 < u8At (params rx) 0 →
    Runs (.loadClass rx) s (replied 0x03 rx (refused .range) s)) ∧
  (∀ rx s, Commanded rx s → 3 ≤ (params rx).length → u8At (params rx) 0 ≤ 15 → s.device = .day →
    (∃ r ∈ s.rides, ∃ c, r.cfg = some c ∧ c.classNo = u8At (params rx) 0 ∧ r.state ≠ .closed) →
    Runs (.loadClass rx) s (replied 0x03 rx (refused .wrongState) s)) ∧
  ∀ rx s k v stored, Commanded rx s → 3 ≤ (params rx).length → u8At (params rx) 0 = k → k ≤ 15 →
    s.classes.length = 16 →
    ¬ (s.device = .day ∧ ∃ r ∈ s.rides, ∃ c, r.cfg = some c ∧ c.classNo = k ∧ r.state ≠ .closed) →
    u16At (params rx) 1 = v → stored = (if v = 0 then 0 else max 60 (min 6000 v)) →
    ∃ u, Runs (.loadClass rx) s
        (replied 0x03 rx (doneOrClamped (if v = stored then [] else [2]) (.classRate stored)) u) ∧
      (classRate k s = stored → u = s) ∧
      classRate k u = stored ∧ (∀ j, j ≠ k → classRate j u = classRate j s) ∧
      (classRate k s ≠ stored → ∀ i ≤ 47, ∀ c r, (rideAt i s).cfg = some c → c.classNo = k →
        r = { rideAt i s with est := { (rideAt i s).est with
          throughput := max (stored / 4) (min (3 * stored / 2) (rideAt i s).est.throughput) } } →
        rideAt i u =
          { (if r.est.throughput = (rideAt i s).est.throughput then r else reestimate r) with
            ring := (rideAt i s).ring.map
              (recomputedWindow (nowMinute s) (capacityOf stored c.passShare c.windowLength)) }) ∧
      (∀ i, (∀ c, (rideAt i s).cfg = some c → c.classNo ≠ k) → rideAt i u = rideAt i s) ∧
      u = { s with classes := u.classes, rides := u.rides }

/-! ## The wait estimator -/

namespace Sys2Proof.Claims

open Sys2Proof.Machine

/-- A DISPATCH that is sampled (R67): in DAY, for a configured ride that is OPEN or HELD. -/
structure Sampled (rx : LineRx) (s : State) (st : Station) (i : Nat) (c : RideCfg) : Prop where
  about : AboutRide dispatchRow rx s st i c
  inDay : s.device = .day
  moving : (rideAt i s).state = .opened ∨ (rideAt i s).state = .held

/-- Seats filled, at most the seats offered (R67). -/
abbrev seatsFilled (rx : LineRx) : Nat := min (u8At (bodyOf rx) 1) (u8At (bodyOf rx) 0)

/-- A ride whose seats total has taken a dispatch (R60, R67). -/
abbrev withSeats (f : Nat) (r : Ride) : Ride :=
  { r with totals := { r.totals with seats := r.totals.seats + BitVec.ofNat 32 f } }

/-- T after a sample of rate `rate` (R71, R72). -/
abbrev throughputMoved (n throughput rate : Nat) : Nat :=
  max (n / 4) (min (3 * n / 2)
    (if throughput ≤ rate then throughput + (rate - throughput) / 8 else throughput - (throughput - rate) / 8))

end Sys2Proof.Claims

/-- R68, R67: the first sampled DISPATCH sets the dispatch mark and adds its seats to the day total. -/
def Obligations.TheFirstDispatchBeginsSampling : Prop :=
  ∀ rx s st i c r, Sampled rx s st i c → rideAt i (heardState rx st s) = r → r.est.mark = none →
    Runs (.dispatch rx) s
      (passedOn dispatchRow rx
        (setRide i { withSeats (seatsFilled rx) r with est := { r.est with mark := some s.clock.elapsed, carry := 0 } }
          (heardState rx st s)))

/-- R70: "A DISPATCH sampled when the ride has a dispatch mark, and t − dispatch mark is greater than 900, ends an idle
gap." The day total of R67 goes with it; the spacing is at most 60 (R39). -/
def Sys2Proof.Claims.ALongPauseEndsAnIdleGap : Prop :=
  ∀ rx s st i c r m, Sampled rx s st i c → c.spacing ≤ 60 → rideAt i (heardState rx st s) = r →
    r.est.mark = some m → m + 900 < s.clock.elapsed →
    Runs (.dispatch rx) s
      (passedOn dispatchRow rx
        (setRide i { withSeats (seatsFilled rx) r with est := { r.est with mark := some s.clock.elapsed, carry := 0 } }
          (heardState rx st s)))

/-- R67, R69, R71, R72: a close DISPATCH is merged and counted; any other moves T one eighth of the way toward its
rate, in the band, and a changed T renews the estimate. A ride that is DOWN or CLOSED adds to its total alone; outside
DAY, and for an unconfigured ride, nothing is added. -/
def Sys2Proof.Claims.DispatchesAreMergedOrSampled : Prop :=
  (∀ rx s st i c r m, Sampled rx s st i c → rideAt i (heardState rx st s) = r → r.est.mark = some m →
    s.clock.elapsed - m < max c.spacing 1 →
    Runs (.dispatch rx) s
      (passedOn dispatchRow rx
        (setRide i
          { withSeats (seatsFilled rx) r with est := { r.est with carry := min 65535 (r.est.carry + seatsFilled rx) } }
          (bump .dispatchMerged (heardState rx st s))))) ∧
  (∀ rx s st i c r m n moved sampled, Sampled rx s st i c → rideAt i (heardState rx st s) = r →
    r.est.mark = some m → max c.spacing 1 ≤ s.clock.elapsed - m → s.clock.elapsed - m ≤ 900 →
    classRate c.classNo s = n →
    moved = throughputMoved n r.est.throughput ((seatsFilled rx + r.est.carry) * 3600 / (s.clock.elapsed - m)) →
    sampled = { withSeats (seatsFilled rx) r with
      est := { r.est with throughput := moved, mark := some s.clock.elapsed, carry := 0 } } →
    Runs (.dispatch rx) s
      (passedOn dispatchRow rx
        (setRide i (if moved = r.est.throughput then sampled else reestimate sampled) (heardState rx st s)))) ∧
  (∀ rx s st i c, AboutRide dispatchRow rx s st i c → s.device = .day →
    (rideAt i s).state = .closed ∨ (rideAt i s).state = .down →
    Runs (.dispatch rx) s
      (passedOn dispatchRow rx
        (setRide i (withSeats (seatsFilled rx) (rideAt i (heardState rx st s))) (heardState rx st s)))) ∧
  ∀ rx s st, Accepted dispatchRow rx s st → s.device ≠ .day ∨ BoundToNone st s →
    Runs (.dispatch rx) s (passedOn dispatchRow rx (heardState rx st s))

/-- R67, R69 to R72: DISPATCH frames after the first. -/
def Obligations.DispatchesAreMergedOrSampled : Prop :=
  Sys2Proof.Claims.ALongPauseEndsAnIdleGap ∧ Sys2Proof.Claims.DispatchesAreMergedOrSampled

/-- R74: "When K is 0, or R is 0, S equals T. Otherwise S is floor(T × M / (M + K))." -/
def Obligations.TheStandbyRate : Prop :=
  (∀ t m k r, k = 0 ∨ r = 0 → standbyRateOf t m k r = max 1 t) ∧
  (∀ t m k r, k ≠ 0 → r ≠ 0 → standbyRateOf t m k r = max 1 (t * m / (m + k))) ∧
  (∀ (r : Ride) c, r.cfg = some c →
    (recompute r).est.standbyRate = standbyRateOf r.est.throughput c.threshold c.batch r.lane.occupancy) ∧
  ∀ t m k r r', 0 < r → 0 < r' → standbyRateOf t m k r = standbyRateOf t m k r'

/-- R75, R76: a recomputation renews S and then W_raw, the queue base and the minutes to clear Q at S, rounded up, at
most 999; an unconfigured ride's estimate is left as it is; a posting run follows. -/
def Sys2Proof.Claims.TheEstimateFollowsItsInputs : Prop :=
  (∀ (r : Ride) c n, r.cfg = some c → standbyRateOf r.est.throughput c.threshold c.batch r.lane.occupancy = n →
    recompute r = { r with est := { r.est with
      standbyRate := n, rawWait := min 999 (c.queueBase + (r.q * 60 + n - 1) / n) } }) ∧
  (∀ r : Ride, r.cfg = none → recompute r = r) ∧ ∀ r : Ride, reestimate r = postingRun (recompute r)

/-- R77: "At each posting run the estimator computes the candidate C = min(top(s), ceil(W_raw / s) × s), with s the
ride's display step and top(s) from Table 4-2." -/
def Obligations.TheCandidate : Prop :=
  (∀ wait, candidateOf 1 wait = min 999 wait) ∧
  (∀ (r : Ride) c, r.cfg = some c → r.state = .opened ∨ r.state = .held → r.est.stale = false →
    (r.est.firstPosting = true ∨ r.est.posted + c.displayStep ≤ candidateOf c.displayStep r.est.rawWait) →
    (postingRun r).est.posted = candidateOf c.displayStep r.est.rawWait) ∧
  ∀ step top, (step, top) ∈ [(1, 999), (5, 995), (10, 990)] →
    ∀ wait c, c % step = 0 → wait ≤ c → c < wait + step → candidateOf step wait = min top c

/-- R78, R79, R80: a posting run moves P only while the ride is OPEN or HELD and not STALE: to the candidate when a
first posting is pending, else to it when it lies a step above or two steps below. -/
def Sys2Proof.Claims.PostingRunsFollowTheirRules : Prop :=
  (∀ (r : Ride) c, r.cfg = some c → (r.state = .closed ∨ r.state = .down) ∨ r.est.stale = true → postingRun r = r) ∧
  (∀ (r : Ride) c, r.cfg = some c → r.state = .opened ∨ r.state = .held → r.est.stale = false →
    r.est.firstPosting = true →
    postingRun r = { r with est := { r.est with
      posted := postedCandidate c.displayStep r.est.rawWait, firstPosting := false } }) ∧
  ∀ (r : Ride) c p, r.cfg = some c → r.state = .opened ∨ r.state = .held → r.est.stale = false →
    r.est.firstPosting = false → postedCandidate c.displayStep r.est.rawWait = p →
    postingRun r = { r with est := { r.est with posted :=
      if r.est.posted + c.displayStep ≤ p ∨ p + 2 * c.displayStep ≤ r.est.posted then p else r.est.posted } }

/-- R75, R76, R78 to R80: recomputations and posting runs. -/
def Obligations.EstimatesAndPostingRuns : Prop :=
  Sys2Proof.Claims.TheEstimateFollowsItsInputs ∧ Sys2Proof.Claims.PostingRunsFollowTheirRules

/-! ## The window calendar -/

/-- R89, R90, R92, R139: at a minute event a ring whose current window has not ended stays; one whose current window has
ended rolls, once for each boundary at or before the minute, and one that the run passes whole is rebuilt. The holds of
the departing windows are cancelled and their tokens' hold counts lowered. -/
def Obligations.RingsRollAndAreRebuilt : Prop :=
  (∀ first last m i (s : State) w rest, (rideAt i s).ring = w :: rest → m < w.start + lengthOf i s →
    m ≠ first ∨ last < w.start + 24 * lengthOf i s → ringMinute first last m i s = s) ∧
  (∀ first last m i (s : State) w v rest c, (rideAt i s).cfg = some c → (rideAt i s).ring = w :: v :: rest →
    0 < c.windowLength → v.start = w.start + c.windowLength → w.start + c.windowLength ≤ m →
    m < w.start + 2 * c.windowLength → m ≠ first ∨ last < w.start + 24 * c.windowLength → tblWf s.holds →
    ∃ t, ringMinute first last m i s = t ∧
      (rideAt i t).ring = (v :: rest) ++
        [freshWindow (((v :: rest).getLastD w).start + c.windowLength)
          (capacityOf (classRate c.classNo s) c.passShare c.windowLength) 0] ∧
      t.holds = s.holds.filter (fun e => ¬ (e.2.ride = i ∧ e.2.start = w.start)) ∧
      t.tokens = (holdsLowered (s.holds.filter (fun e => e.2.ride = i ∧ e.2.start = w.start)) s).tokens ∧
      rideAt i t = { rideAt i s with ring := (rideAt i t).ring } ∧ OtherRidesKept i s t ∧
      t = { s with rides := t.rides, holds := t.holds, tokens := t.tokens }) ∧
  (∀ first last i (s : State) w rest c, (rideAt i s).cfg = some c → (rideAt i s).ring = w :: rest →
    w.start + 24 * c.windowLength ≤ last → tblWf s.holds →
    ∃ t, ringMinute first last first i s = t ∧
      (rideAt i t).ring =
        freshRing last c.windowLength (capacityOf (classRate c.classNo s) c.passShare c.windowLength) (fun _ => 0) ∧
      t.holds = s.holds.filter (fun e => ¬ (e.2.ride = i ∧ ∃ w ∈ (rideAt i s).ring, w.start = e.2.start)) ∧
      t.tokens =
        (holdsLowered (s.holds.filter (fun e => e.2.ride = i ∧ ∃ w ∈ (rideAt i s).ring, w.start = e.2.start)) s).tokens ∧
      rideAt i t = { rideAt i s with ring := (rideAt i t).ring } ∧ OtherRidesKept i s t ∧
      t = { s with rides := t.rides, holds := t.holds, tokens := t.tokens }) ∧
  (∀ first last m i (s : State) w rest c n, (rideAt i s).cfg = some c → (rideAt i s).ring = w :: rest →
    0 < c.windowLength → (∀ p v, (rideAt i s).ring[p]? = some v → v.start = w.start + p * c.windowLength) →
    w.start + n * c.windowLength ≤ m → m < w.start + (n + 1) * c.windowLength →
    m ≠ first ∨ last < w.start + 24 * c.windowLength → tblWf s.holds →
    ∃ t, ringMinute first last m i s = t ∧
      (rideAt i t).ring =
        ((rideAt i s).ring ++ (List.range n).map (fun j =>
          freshWindow (w.start + ((rideAt i s).ring.length + j) * c.windowLength)
            (capacityOf (classRate c.classNo s) c.passShare c.windowLength) 0)).drop n ∧
      t.holds = s.holds.filter (fun e => ¬ (e.2.ride = i ∧ ∃ j < n, e.2.start = w.start + j * c.windowLength)) ∧
      t.tokens = (holdsLowered
        ((List.range n).flatMap (fun j =>
          s.holds.filter (fun e => e.2.ride = i ∧ e.2.start = w.start + j * c.windowLength))) s).tokens ∧
      rideAt i t = { rideAt i s with ring := (rideAt i t).ring } ∧ OtherRidesKept i s t ∧
      t = { s with rides := t.rides, holds := t.holds, tokens := t.tokens }) ∧
  ∀ first last m i (s : State), (rideAt i s).ring = [] → ringMinute first last m i s = s

/-- R97, R98: the offer start is the earliest minute rounded up to a window length, and the search chooses the first
window from it on that is marked, has room for the party and overlaps no busy window. -/
def Sys2Proof.Claims.TheOfferSearch : Prop :=
  (∀ i notBefore (s : State) c earliest, (rideAt i s).cfg = some c → 0 < c.windowLength →
    earliest = max (nowMinute s + max c.minLead (rideAt i s).est.rawWait) (notBefore.getD 0) →
    offerStart i notBefore s % c.windowLength = 0 ∧ earliest ≤ offerStart i notBefore s ∧
      offerStart i notBefore s < earliest + c.windowLength) ∧
  (∀ i party start busy (s : State) w, searchRing i party start busy s = some w ↔
    ∃ before after, (rideAt i s).ring = before ++ w :: after ∧
      (start ≤ w.start ∧ w.mark = true ∧ party ≤ w.capacity - w.issued - w.held ∧
        ∀ b ∈ busy, ¬ (w.start < b.1 + b.2 ∧ b.1 < w.start + lengthOf i s)) ∧
      ∀ v ∈ before, ¬ (start ≤ v.start ∧ v.mark = true ∧ party ≤ v.capacity - v.issued - v.held ∧
        ∀ b ∈ busy, ¬ (v.start < b.1 + b.2 ∧ b.1 < v.start + lengthOf i s))) ∧
  ∀ i party start busy (s : State), searchRing i party start busy s = none ↔
    ∀ v ∈ (rideAt i s).ring, ¬ (start ≤ v.start ∧ v.mark = true ∧ party ≤ v.capacity - v.issued - v.held ∧
      ∀ b ∈ busy, ¬ (v.start < b.1 + b.2 ∧ b.1 < v.start + lengthOf i s))

/-- R100, R101: the next-return value is the start of the first marked window from the offer start on, and 0FFFFH when
the ride is unconfigured or without one, not OPEN, without a pass share, or the clock ADRIFT. -/
def Sys2Proof.Claims.TheNextReturnValue : Prop :=
  (∀ i (s : State), 47 < i ∨ (rideAt i s).cfg = none ∨ (rideAt i s).ring = [] ∨ (rideAt i s).state ≠ .opened ∨
      (∀ c, (rideAt i s).cfg = some c → c.passShare = 0) ∨ s.clock.state = .adrift ∨
      (∀ w ∈ (rideAt i s).ring, w.mark = true → w.start < offerStart i none s) → nextReturn i s = 0xFFFF) ∧
  ∀ i (s : State) c before w after, i ≤ 47 → (rideAt i s).cfg = some c → (rideAt i s).state = .opened →
    c.passShare ≠ 0 → s.clock.state ≠ .adrift → (rideAt i s).ring = before ++ w :: after → w.mark = true →
    offerStart i none s ≤ w.start → (∀ v ∈ before, v.mark = true → v.start < offerStart i none s) →
    nextReturn i s = w.start

/-- R97, R98, R100, R101: the offer search and the next-return value. -/
def Obligations.TheOfferSearchAndTheNextReturn : Prop :=
  Sys2Proof.Claims.TheOfferSearch ∧ Sys2Proof.Claims.TheNextReturnValue

/-! ## The pass book -/

namespace Sys2Proof.Claims

open Sys2Proof.Machine

/-- Every token record stands at its token's key (log 13). -/
abbrev TokensAtTheirKeys (s : State) : Prop := ∀ e ∈ s.tokens, e.1 = tokenKey e.2.token

/-- The free entry with the lowest index (R104). -/
abbrev LowestFree (k : Nat) (s : State) : Prop := tblGet s.passes k = none ∧ ∀ j < k, tblGet s.passes j ≠ none

/-- A PASSLOG placed in the park origin queue (R120, R193). -/
abbrev logged (event : PassEvent) (k : Nat) (p : Pass) (count : Nat) (s : State) : State :=
  broadcastTo .park 4095 (.passLog event k p.ride count (p.start.getD 0xFFFF) s.clock.parkTime p.token) s

/-- A pass index off its token's list (R106). -/
abbrev unlisted (token : List Byte) (k : Nat) (s : State) : State :=
  updToken token (fun r => { r with passes := r.passes.filter (· ≠ k) }) s

/-- The deadline minute of a windowed pass (section 6.4, R26). -/
abbrev lastMinute (start : Nat) (p : Pass) (c : RideCfg) (s : State) : Nat :=
  start + p.length + c.lateGrace + if s.clock.state = .adrift then 5 else 0

/-- A windowed pass is disrupted, in day seconds (R111); the early limit may be negative. -/
abbrev Disrupted (start : Nat) (p : Pass) (c : RideCfg) (s : State) : Prop :=
  ∃ o ∈ (rideAt p.ride s).outages, (o.start : Int) < lastMinute start p c s * 60 ∧
    ((start : Int) - c.earlyGrace) * 60 < o.stop.getD (nowSecond s)

/-- A pass that the event of minute `m` examines: ISSUED, windowed, its deadline `m` or less (R113). -/
def dueAt (m : Nat) (p : Pass) (s : State) : Bool :=
  decide (p.state = .issued ∧ ∃ start ∈ p.start, lastMinute start p (rideCfg (rideAt p.ride s)) s ≤ m)

/-- An examined pass is disrupted (R111). -/
def foundDisrupted (p : Pass) (s : State) : Bool :=
  decide (∃ start ∈ p.start, Disrupted start p (rideCfg (rideAt p.ride s)) s)

/-- What the examination of a pass logs, counts and takes off its token's list (R106, R113, R120): a PASSLOG DISRUPTED
with the guests not yet admitted, or one more EXPIRIES, a PASSLOG EXPIRE with the guests admitted, and the index off. -/
abbrev examined (isDisrupted : Bool) (k : Nat) (p : Pass) (s : State) : State :=
  if isDisrupted then logged .disrupted k p (p.party - p.admitted) s
  else unlisted p.token k (logged .expire k p p.admitted (bump .expiries s))

/-- The windows of a ring without their marks. -/
abbrev windowCounts (ring : List Window) : List (Nat × Nat × Nat × Nat) :=
  ring.map (fun w => (w.start, w.capacity, w.issued, w.held))

/-- A refusal of a request: a REFUSE in the field origin queue, counted (R115, R125, R132, R142). -/
abbrev refusedTo (rx : LineRx) (kind : Nat) (reason : RefuseReason) (extra : Nat) (s : State) : State :=
  bump .refusals (answered rx (.refuse (tagOf rx) kind reason extra) s)

/-- The token bytes of a request (Table 1-2). -/
abbrev tokenOf (lengthAt : Nat) (bytes : List Byte) : List Byte :=
  (bytes.drop (lengthAt + 1)).take (u8At bytes lengthAt)

/-- A bad token (R103). -/
abbrev BadToken (token : List Byte) (s : State) : Prop :=
  token.length < 4 ∨ 16 < token.length ∨ ∀ b ∈ token, b = s.settings.pad

/-- The normalized form of a token (R103). -/
abbrev normalized (token : List Byte) (s : State) : List Byte :=
  token ++ List.replicate (16 - token.length) s.settings.pad

end Sys2Proof.Claims

/-- R103: two normalized tokens are told apart by every byte, whatever the pad byte and the lengths they came with. -/
def Sys2Proof.Claims.TokensAreToldApartByEveryByte : Prop :=
  (∀ a b : List Byte, a.length = b.length → tokenKey a = tokenKey b → a = b) ∧
  (∀ (token : List Byte) (s : State), ¬ BadToken token s → (normalized token s).length = 16) ∧
  ∀ (token : List Byte) (s : State), badToken s.settings.pad token = true ↔ BadToken token s

/-- R108: a token's record is changed, or created for the change, and freed when it is left with no pass and no hold;
every other token's record is left as it is. -/
def Sys2Proof.Claims.TokenRecordsAreKeptOrFreed : Prop :=
  ∀ token (f : TokenRec → TokenRec) (s : State) r, TokensAtTheirKeys s →
    (∀ a : TokenRec, (f a).token = a.token) →
    r = f ((tokenRec token s).getD { token := token, passes := [], holds := 0 }) →
    tokenRec token (updToken token f s) = (if r.passes = [] ∧ r.holds = 0 then none else some r) ∧
      (∀ key, key ≠ tokenKey token → tblGet (updToken token f s).tokens key = tblGet s.tokens key) ∧
      TokensAtTheirKeys (updToken token f s) ∧
      updToken token f s = { s with tokens := (updToken token f s).tokens }

/-- R104: a new pass takes the free entry with the lowest index. -/
def Sys2Proof.Claims.NewPassesTakeTheLowestFreeEntry : Prop :=
  ∀ s : State, tblWf s.passes → LowestFree (freeEntry s) s

/-- R103, R104, R108: tokens, their records, and the entries of the pass table. -/
def Obligations.TokensAndEntries : Prop :=
  Sys2Proof.Claims.TokensAreToldApartByEveryByte ∧
    Sys2Proof.Claims.TokenRecordsAreKeptOrFreed ∧
    Sys2Proof.Claims.NewPassesTakeTheLowestFreeEntry

/-- R106, R111, R113: at the event of a minute every ISSUED pass whose deadline it reaches becomes ANYTIME when it is
disrupted and is freed when it is not; every other pass is left as it is. -/
def Sys2Proof.Claims.PassesExpireAtTheirDeadline : Prop :=
  ∀ m (s : State), tblWf s.passes →
    (∀ k p, tblGet s.passes k = some p → p.state ≠ .issued ∨ p.start = none ∨
        (∃ start c, p.start = some start ∧ (rideAt p.ride s).cfg = some c ∧ m < lastMinute start p c s) →
      tblGet (expirePasses m s).passes k = some p) ∧
    (∀ k p start c, tblGet s.passes k = some p → p.state = .issued → p.start = some start →
      (rideAt p.ride s).cfg = some c → lastMinute start p c s ≤ m → Disrupted start p c s →
      tblGet (expirePasses m s).passes k = some { p with state := .anytime }) ∧
    (∀ k p start c, tblGet s.passes k = some p → p.state = .issued → p.start = some start →
      (rideAt p.ride s).cfg = some c → lastMinute start p c s ≤ m → ¬ Disrupted start p c s →
      tblGet (expirePasses m s).passes k = none) ∧
    (∀ k, tblGet s.passes k = none → tblGet (expirePasses m s).passes k = none) ∧
    expirePasses m s = { s with passes := (expirePasses m s).passes, tokens := (expirePasses m s).tokens,
                                park := (expirePasses m s).park, counters := (expirePasses m s).counters }

/-- R106, R113, R120, R193: the passes that an event examines are taken in increasing order of index, each with its
PASSLOG and, when it expires, its token's list and one more EXPIRIES. -/
def Sys2Proof.Claims.ExpiriesAreLoggedCountedAndUnlisted : Prop :=
  ∀ m (s : State) due, due = s.passes.filter (fun e => dueAt m e.2 s) →
    expirePasses m s =
      { due.foldl (fun t e => examined (foundDisrupted e.2 s) e.1 e.2 t) s with
        passes := (expirePasses m s).passes } ∧
    (s.counters.expiries ≤ 65535 →
      (expirePasses m s).counters.expiries =
        min 65535 (s.counters.expiries + (due.filter (fun e => !foundDisrupted e.2 s)).length))

/-- R106, R111, R113, R120: the examination of passes at minute events. -/
def Obligations.PassesExpireAtTheirDeadline : Prop :=
  Sys2Proof.Claims.PassesExpireAtTheirDeadline ∧ Sys2Proof.Claims.ExpiriesAreLoggedCountedAndUnlisted

namespace Sys2Proof.Claims

open Sys2Proof.Machine

/-- The state after a cancellation of the pass of entry `k` (R106, R116): its PASSLOG, its token's list, its entry and,
for a windowed pass, its window. -/
structure Cancelled (k : Nat) (p : Pass) (s u : State) : Prop where
  passes : u.passes = tblErase s.passes k
  tokens : u.tokens = (unlisted p.token k s).tokens
  log : u.park = (logged .cancel k p (p.party - p.admitted) s).park
  courtesy : p.start = none → u.rides = s.rides
  window : ∀ start, p.start = some start →
    windowCounts (rideAt p.ride u).ring =
      (rideAt p.ride s).ring.map
        (fun w => (w.start, w.capacity,
          if w.start = start ∧ p.length = lengthOf p.ride s ∧ nowMinute s < start
            then w.issued - (p.party - p.admitted) else w.issued, w.held))
  ride : rideAt p.ride u = { rideAt p.ride s with ring := (rideAt p.ride u).ring }
  others : OtherRidesKept p.ride s u
  frame : u = { s with passes := u.passes, tokens := u.tokens, rides := u.rides, park := u.park,
                       counters := u.counters }

/-- Guests the calendar gives back for a cancelled pass: those not admitted, and no more than its window has issued
(log 28); 0 where R96 changes nothing, and for a courtesy pass (R96, R116, R117). -/
abbrev guestsGivenBack (p : Pass) (s : State) : Nat :=
  match p.start with
  | none => 0
  | some start =>
    match (rideAt p.ride s).ring.find? (fun w => w.start = start) with
    | none => 0
    | some w =>
      if p.length = lengthOf p.ride s ∧ nowMinute s < start then min (p.party - p.admitted) w.issued else 0

end Sys2Proof.Claims

/-- R115, R116, R96, R106: a kiosk CANCEL is refused by its five checks in order, or cancels the token's pass on the
ride and is acknowledged by a GRANT of party size 0. -/
def Sys2Proof.Claims.KioskCancelEndsAPass : Prop :=
  (∀ rx s st, Accepted cancelRow rx s st → s.device ≠ .day →
    Runs (.cancel rx) s (refusedTo rx 0x13 .dayClosed 0 (heardState rx st s))) ∧
  (∀ rx s st, Accepted cancelRow rx s st → s.device = .day → BadToken (tokenOf 3 (bodyOf rx)) s →
    Runs (.cancel rx) s (refusedTo rx 0x13 .badToken 0 (heardState rx st s))) ∧
  (∀ rx s st, Accepted cancelRow rx s st → s.device = .day → ¬ BadToken (tokenOf 3 (bodyOf rx)) s →
    47 < u8At (bodyOf rx) 2 ∨ (rideAt (u8At (bodyOf rx) 2) s).cfg = none →
    Runs (.cancel rx) s (refusedTo rx 0x13 .unknownRide 0 (heardState rx st s))) ∧
  (∀ rx s st i, Accepted cancelRow rx s st → s.device = .day → ¬ BadToken (tokenOf 3 (bodyOf rx)) s →
    u8At (bodyOf rx) 2 = i → i ≤ 47 → (rideAt i s).cfg ≠ none →
    passOn (normalized (tokenOf 3 (bodyOf rx)) s) i s = none →
    Runs (.cancel rx) s (refusedTo rx 0x13 .noPass 0 (heardState rx st s))) ∧
  (∀ rx s st i k p, Accepted cancelRow rx s st → s.device = .day → ¬ BadToken (tokenOf 3 (bodyOf rx)) s →
    u8At (bodyOf rx) 2 = i → i ≤ 47 → (rideAt i s).cfg ≠ none →
    passOn (normalized (tokenOf 3 (bodyOf rx)) s) i s = some (k, p) →
    p.state = .anytime ∨ 0 < p.admitted ∨ (∃ start, p.start = some start ∧ start ≤ nowMinute s) →
    Runs (.cancel rx) s (refusedTo rx 0x13 .cancelLate 0 (heardState rx st s))) ∧
  ∀ rx s st i k p start, Accepted cancelRow rx s st → s.device = .day → ¬ BadToken (tokenOf 3 (bodyOf rx)) s →
    u8At (bodyOf rx) 2 = i → i ≤ 47 → (rideAt i s).cfg ≠ none →
    passOn (normalized (tokenOf 3 (bodyOf rx)) s) i s = some (k, p) → p.state = .issued → p.admitted = 0 →
    p.start = some start → nowMinute s < start →
    ∃ u, Runs (.cancel rx) s (answered rx (.grant (tagOf rx) k i start p.length 0) u) ∧
      Cancelled k p (heardState rx st s) u

/-- R117: CANCEL_PASS cancels the live pass of an index, whatever its state, and answers with what it was and what the
calendar gave back (at most what the window had issued, log 28); a free entry is refused NOT_FOUND and an index above
8191 RANGE. -/
def Sys2Proof.Claims.CancelPassEndsAnyPass : Prop :=
  (∀ rx s k p, Commanded rx s → 2 ≤ (params rx).length → u16At (params rx) 0 = k → k ≤ 8191 →
    tblGet s.passes k = some p →
    ∃ u, Runs (.cancelPass rx) s
        (replied 0x13 rx
          (done (.cancelled p.ride (p.start.getD 0xFFFF) p.party p.admitted (guestsGivenBack p s))) u) ∧
      Cancelled k p s u) ∧
  (∀ rx s, Commanded rx s → 2 ≤ (params rx).length → 8191 < u16At (params rx) 0 →
    Runs (.cancelPass rx) s (replied 0x13 rx (refused .range) s)) ∧
  ∀ rx s, Commanded rx s → 2 ≤ (params rx).length → u16At (params rx) 0 ≤ 8191 →
    tblGet s.passes (u16At (params rx) 0) = none →
    Runs (.cancelPass rx) s (replied 0x13 rx (refused .notFound) s)

/-- R96, R106, R115 to R117: the two cancellations; refusals are counted as log 19 says, and a window's issued count
stops at 0, where CANCEL_PASS answers what it fell by (log 28). -/
def Obligations.CancellationsEndAPass : Prop :=
  Sys2Proof.Claims.KioskCancelEndsAPass ∧ Sys2Proof.Claims.CancelPassEndsAnyPass

/-! ## The kiosk exchange -/

namespace Sys2Proof.Claims

open Sys2Proof.Machine

/-- A hold out of its slot, its token's hold count lowered, its room given back, its window's capacity as it was (R94,
R134, R136, R137; log 25). -/
structure Released (slot : Nat) (h : Hold) (s u : State) : Prop where
  holds : u.holds = tblErase s.holds slot
  tokens : u.tokens = (updToken h.token (fun r => { r with holds := r.holds - 1 }) s).tokens
  window : windowCounts (rideAt h.ride u).ring =
    (rideAt h.ride s).ring.map
      (fun w => (w.start, w.capacity, w.issued, if w.start = h.start then w.held - h.party else w.held))
  ride : rideAt h.ride u = { rideAt h.ride s with ring := (rideAt h.ride u).ring }
  others : OtherRidesKept h.ride s u
  frame : u = { s with holds := u.holds, tokens := u.tokens, rides := u.rides, expiredIds := u.expiredIds }

/-- A PASSREQ that passes the checks 1 to 8 of Table 7-1, its ride and its party. -/
structure Asked (rx : LineRx) (s : State) (st : Station) (i party : Nat) (c : RideCfg) : Prop where
  accepted : Accepted passReqRow rx s st
  inDay : s.device = .day
  token : ¬ BadToken (tokenOf 6 (bodyOf rx)) s
  names : u8At (bodyOf rx) 2 = i
  guests : u8At (bodyOf rx) 3 = party
  party : 1 ≤ party ∧ party ≤ 8
  inRange : i ≤ 47
  known : (rideAt i s).cfg = some c
  opened : (rideAt i s).state = .opened
  controlled : (rideAt i s).noControl = false
  share : c.passShare ≠ 0
  clock : s.clock.state ≠ .adrift

/-- The token of a PASSREQ, normalized. -/
abbrev askedToken (rx : LineRx) (s : State) : List Byte := normalized (tokenOf 6 (bodyOf rx)) s

/-- The recent-offer list after check 13's removals (R130). -/
abbrev recentKept (i : Nat) (c : RideCfg) (s : State) : List Nat :=
  let within := (rideAt i s).recent.filter (fun t => s.clock.elapsed < t + c.interval)
  within.drop (within.length - c.burst)

/-- A ride's recent-offer list replaced. -/
abbrev withRecent (i : Nat) (recent : List Nat) (s : State) : State := setRide i { rideAt i s with recent := recent } s

/-- A PASSREQ that passes the checks 1 to 12 of Table 7-1. -/
structure Listed (rx : LineRx) (s : State) (st : Station) (i party : Nat) (c : RideCfg) : Prop where
  asked : Asked rx s st i party c
  noPass : passOn (askedToken rx s) i s = none
  noHold : holdOn (askedToken rx s) i s = none
  below : atWindowedLimit (askedToken rx s) s = false
  room : s.holds.length < 8192 - s.passes.length
  slots : s.holds.length < 64

/-- The not-before minute, absent when it is 0FFFFH (R97). -/
abbrev notBefore (rx : LineRx) : Option Nat :=
  if u16At (bodyOf rx) 4 = 0xFFFF then none else some (u16At (bodyOf rx) 4)

/-- The window the calendar chooses for a PASSREQ (R129). -/
abbrev chosenWindow (rx : LineRx) (i party : Nat) (s : State) : Option Window :=
  searchRing i party (offerStart i (notBefore rx) s) (busyWindows (askedToken rx s) s) s

/-- The id after another (R123). -/
abbrev idAfter (id : Nat) : Nat := if id = 65535 then 1 else id + 1

end Sys2Proof.Claims

/-- R109: the two limits of a token, in windowed places and in places. -/
def Sys2Proof.Claims.TheTokenLimits : Prop :=
  (∀ token (s : State), tokenRec token s = none →
    atCourtesyLimit token s = false ∧ (1 ≤ s.settings.tokenLimit → atWindowedLimit token s = false)) ∧
  ∀ token (s : State) r, tokenRec token s = some r →
    (atCourtesyLimit token s = true ↔ 6 ≤ r.passes.length + r.holds) ∧
    (atWindowedLimit token s = true ↔
      s.settings.tokenLimit ≤
          (r.passes.filter (fun k => ∃ p, tblGet s.passes k = some p ∧ p.start ≠ none)).length + r.holds ∨
        6 ≤ r.passes.length + r.holds)

/-- Table 7-1, checks 1 to 8: the first that fails decides the REFUSE, with extra 0, and nothing else changes. -/
def Sys2Proof.Claims.PassRequestsAreCheckedInOrder : Prop :=
  (∀ rx s st, Accepted passReqRow rx s st → s.device ≠ .day →
    Runs (.passReq rx) s (refusedTo rx 0x10 .dayClosed 0 (heardState rx st s))) ∧
  (∀ rx s st, Accepted passReqRow rx s st → s.device = .day → BadToken (tokenOf 6 (bodyOf rx)) s →
    Runs (.passReq rx) s (refusedTo rx 0x10 .badToken 0 (heardState rx st s))) ∧
  (∀ rx s st, Accepted passReqRow rx s st → s.device = .day → ¬ BadToken (tokenOf 6 (bodyOf rx)) s →
    u8At (bodyOf rx) 3 = 0 ∨ 8 < u8At (bodyOf rx) 3 →
    Runs (.passReq rx) s (refusedTo rx 0x10 .badParty 0 (heardState rx st s))) ∧
  ∀ rx s st i, Accepted passReqRow rx s st → s.device = .day → ¬ BadToken (tokenOf 6 (bodyOf rx)) s →
    1 ≤ u8At (bodyOf rx) 3 → u8At (bodyOf rx) 3 ≤ 8 → u8At (bodyOf rx) 2 = i →
    (47 < i ∨ (rideAt i s).cfg = none →
      Runs (.passReq rx) s (refusedTo rx 0x10 .unknownRide 0 (heardState rx st s))) ∧
    ∀ c, i ≤ 47 → (rideAt i s).cfg = some c →
      ((rideAt i s).state = .closed →
        Runs (.passReq rx) s (refusedTo rx 0x10 .rideClosed 0 (heardState rx st s))) ∧
      ((rideAt i s).state = .down → Runs (.passReq rx) s (refusedTo rx 0x10 .rideDown 0 (heardState rx st s))) ∧
      ((rideAt i s).state = .held → Runs (.passReq rx) s (refusedTo rx 0x10 .rideHeld 0 (heardState rx st s))) ∧
      ((rideAt i s).state = .opened → (rideAt i s).noControl = true →
        Runs (.passReq rx) s (refusedTo rx 0x10 .noControl 0 (heardState rx st s))) ∧
      ((rideAt i s).state = .opened → (rideAt i s).noControl = false → c.passShare = 0 →
        Runs (.passReq rx) s (refusedTo rx 0x10 .noPasses 0 (heardState rx st s))) ∧
      ((rideAt i s).state = .opened → (rideAt i s).noControl = false → c.passShare ≠ 0 → s.clock.state = .adrift →
        Runs (.passReq rx) s (refusedTo rx 0x10 .clock 0 (heardState rx st s)))

/-- R126 to R128, Table 7-1, checks 9 to 12: a token with a pass or a hold on the ride is refused, unless it repeats
its own request and is sent its OFFER again; then the token's limit, the table's entries and the hold list's slots. -/
def Sys2Proof.Claims.PassRequestsMeetTheBookAndTheHoldList : Prop :=
  (∀ rx s st i party c k p, Asked rx s st i party c → passOn (askedToken rx s) i s = some (k, p) →
    Runs (.passReq rx) s (refusedTo rx 0x10 .holdsPass (p.start.getD 0xFFFF) (heardState rx st s))) ∧
  (∀ rx s st i party c slot h, Asked rx s st i party c → passOn (askedToken rx s) i s = none →
    holdOn (askedToken rx s) i s = some (slot, h) →
    (h.kiosk = rx.source.toNat ∧ h.tag = tagOf rx ∧ h.party = party →
      Runs (.passReq rx) s
        (answered rx (.offer (tagOf rx) h.id i h.start c.windowLength (max 1 (h.deadline - s.clock.elapsed)))
          (heardState rx st s))) ∧
    (¬ (h.kiosk = rx.source.toNat ∧ h.tag = tagOf rx ∧ h.party = party) →
      Runs (.passReq rx) s (refusedTo rx 0x10 .holdsPass h.start (heardState rx st s)))) ∧
  ∀ rx s st i party c, Asked rx s st i party c → passOn (askedToken rx s) i s = none →
    holdOn (askedToken rx s) i s = none →
    (atWindowedLimit (askedToken rx s) s = true →
      Runs (.passReq rx) s (refusedTo rx 0x10 .limit 0 (heardState rx st s))) ∧
    (atWindowedLimit (askedToken rx s) s = false → 8192 - s.passes.length ≤ s.holds.length →
      Runs (.passReq rx) s
        (refusedTo rx 0x10 .bookFull 0 (report .bookFull i (8192 - s.passes.length) (heardState rx st s)))) ∧
    ∀ first wait, atWindowedLimit (askedToken rx s) s = false → s.holds.length < 8192 - s.passes.length →
      64 ≤ s.holds.length → (∃ e ∈ s.holds, e.2.deadline = first) → (∀ e ∈ s.holds, first ≤ e.2.deadline) →
      wait = max 1 (first - s.clock.elapsed) →
      Runs (.passReq rx) s
        (refusedTo rx 0x10 .busyRetry wait (report .holdsFull i wait (heardState rx st s)))

/-- R130, Table 7-1, checks 13 and 14: the recent-offer list loses its old entries; a list at its burst, and a search
that finds no window, are refused, and the removals stand (log 20). -/
def Sys2Proof.Claims.PassRequestsMeetTheBurstAndTheSearch : Prop :=
  (∀ rx s st i party c oldest rest, Listed rx s st i party c → recentKept i c s = oldest :: rest →
    c.burst ≤ (oldest :: rest).length →
    Runs (.passReq rx) s
      (refusedTo rx 0x10 .busyRetry (oldest + c.interval - s.clock.elapsed)
        (withRecent i (oldest :: rest) (heardState rx st s)))) ∧
  ∀ rx s st i party c, Listed rx s st i party c → (recentKept i c s).length < c.burst →
    chosenWindow rx i party s = none →
    Runs (.passReq rx) s
      (refusedTo rx 0x10 .noWindow 0 (withRecent i (recentKept i c s) (heardState rx st s)))

/-- R109, R125 to R128, R130, Table 7-1: the fourteen checks of a PASSREQ; refusals are counted as log 19 says, and
log 20 says which removals stand. -/
def Obligations.PassRequestsAreRefusedInOrder : Prop :=
  Sys2Proof.Claims.TheTokenLimits ∧
    Sys2Proof.Claims.PassRequestsAreCheckedInOrder ∧
    Sys2Proof.Claims.PassRequestsMeetTheBookAndTheHoldList ∧
    Sys2Proof.Claims.PassRequestsMeetTheBurstAndTheSearch

/-- R93, R123, R129: a served PASSREQ reserves its party in the chosen window, makes a hold with the first unused id at or
after the next id, raises the token's hold count, appends to the recent-offer list and answers with an OFFER, counted as
log 19 says. -/
def Obligations.ServedPassRequestsMakeAHold : Prop :=
  ∀ rx s st i party c w, Listed rx s st i party c → (recentKept i c s).length < c.burst → tblWf s.holds →
    s.nextId ≤ 65535 → 1 ≤ s.nextId → chosenWindow rx i party s = some w →
    ∃ t id slot, Runs (.passReq rx) s t ∧ (∀ e ∈ s.holds, e.2.id ≠ id) ∧
      ((∀ e ∈ s.holds, e.2.id ≠ s.nextId) → id = s.nextId) ∧ 1 ≤ id ∧ id ≤ 65535 ∧ t.nextId = idAfter id ∧
      (∃ n, id = Nat.repeat idAfter n s.nextId ∧ ∀ j < n, ∃ e ∈ s.holds, e.2.id = Nat.repeat idAfter j s.nextId) ∧
      tblGet s.holds slot = none ∧ (∀ j < slot, tblGet s.holds j ≠ none) ∧
      t.holds = tblSet s.holds slot
        { id := id, token := askedToken rx s, ride := i, start := w.start, party := party,
          kiosk := rx.source.toNat, tag := tagOf rx, deadline := s.clock.elapsed + s.settings.holdTime } ∧
      t.tokens = (updToken (askedToken rx s) (fun r => { r with holds := r.holds + 1 }) s).tokens ∧
      windowCounts (rideAt i t).ring =
        (rideAt i s).ring.map
          (fun v => (v.start, v.capacity, v.issued, if v.start = w.start then v.held + party else v.held)) ∧
      (rideAt i t).recent = recentKept i c s ++ [s.clock.elapsed] ∧
      rideAt i t = { rideAt i s with ring := (rideAt i t).ring, recent := (rideAt i t).recent } ∧
      OtherRidesKept i s t ∧
      t.field = (answered rx (.offer (tagOf rx) id i w.start c.windowLength s.settings.holdTime)
        (heardState rx st s)).field ∧
      t.counters.offers = min 65535 (s.counters.offers + 1) ∧
      t = { heardState rx st s with
        holds := t.holds, nextId := t.nextId, tokens := t.tokens, rides := t.rides, field := t.field,
        counters := t.counters }

/-- R132, R134: a TAKE is judged by its cases in order; one whose ride is DOWN loses its hold, which is released,
its window keeping its capacity (log 25). -/
def Sys2Proof.Claims.TakesAreRefusedInOrder : Prop :=
  (∀ rx s st, Accepted takeRow rx s st → s.device ≠ .day →
    Runs (.take rx) s (refusedTo rx 0x11 .dayClosed 0 (heardState rx st s))) ∧
  (∀ rx s st, Accepted takeRow rx s st → s.device = .day → BadToken (tokenOf 4 (bodyOf rx)) s →
    Runs (.take rx) s (refusedTo rx 0x11 .badToken 0 (heardState rx st s))) ∧
  (∀ rx s st, Accepted takeRow rx s st → s.device = .day → ¬ BadToken (tokenOf 4 (bodyOf rx)) s →
    (∀ e ∈ s.holds, e.2.id ≠ u16At (bodyOf rx) 2) →
    Runs (.take rx) s
      (refusedTo rx 0x11 (if u16At (bodyOf rx) 2 ∈ s.expiredIds then .expired else .unknownHold) 0
        (heardState rx st s))) ∧
  (∀ rx s st slot h, Accepted takeRow rx s st → s.device = .day → ¬ BadToken (tokenOf 4 (bodyOf rx)) s →
    holdWithId (u16At (bodyOf rx) 2) s = some (slot, h) → h.token ≠ normalized (tokenOf 4 (bodyOf rx)) s →
    Runs (.take rx) s (refusedTo rx 0x11 .notOwner 0 (heardState rx st s))) ∧
  ∀ rx s st slot h, Accepted takeRow rx s st → s.device = .day → ¬ BadToken (tokenOf 4 (bodyOf rx)) s →
    holdWithId (u16At (bodyOf rx) 2) s = some (slot, h) → h.token = normalized (tokenOf 4 (bodyOf rx)) s →
    (rideAt h.ride s).state = .down →
    ∃ u, Runs (.take rx) s (refusedTo rx 0x11 .rideDown 0 u) ∧ Released slot h (heardState rx st s) u ∧
      u.expiredIds = s.expiredIds

/-- R95, R105, R133: a granted TAKE turns the hold into an ISSUED pass of the lowest free entry, with the window's
guests moved from held to issued, the token's list and hold count changed together, the totals raised, and a GRANT. -/
def Sys2Proof.Claims.GrantedTakesMakeAPass : Prop :=
  ∀ rx s st slot h c k, Accepted takeRow rx s st → s.device = .day → ¬ BadToken (tokenOf 4 (bodyOf rx)) s →
    holdWithId (u16At (bodyOf rx) 2) s = some (slot, h) → h.token = normalized (tokenOf 4 (bodyOf rx)) s →
    (rideAt h.ride s).state ≠ .down → (rideAt h.ride s).cfg = some c → tblWf s.passes → LowestFree k s →
    ∃ t p, Runs (.take rx) s t ∧
      p = { token := h.token, ride := h.ride, start := some h.start, length := c.windowLength, party := h.party,
            admitted := 0, state := .issued } ∧
      t.passes = tblSet s.passes k p ∧ t.holds = tblErase s.holds slot ∧
      t.tokens = (updToken h.token (fun r => { r with passes := r.passes ++ [k], holds := r.holds - 1 }) s).tokens ∧
      windowCounts (rideAt h.ride t).ring =
        (rideAt h.ride s).ring.map
          (fun w => (w.start, w.capacity, if w.start = h.start then w.issued + h.party else w.issued,
            if w.start = h.start then w.held - h.party else w.held)) ∧
      (rideAt h.ride t).totals = { (rideAt h.ride s).totals with granted := (rideAt h.ride s).totals.granted + 1 } ∧
      rideAt h.ride t = { rideAt h.ride s with ring := (rideAt h.ride t).ring, totals := (rideAt h.ride t).totals } ∧
      OtherRidesKept h.ride s t ∧ t.counters.grants = min 65535 (s.counters.grants + 1) ∧
      t.park = (logged .grant k p h.party (heardState rx st s)).park ∧
      t.field = (answered rx (.grant (tagOf rx) k h.ride h.start c.windowLength h.party) (heardState rx st s)).field ∧
      t = { heardState rx st s with
        passes := t.passes, holds := t.holds, tokens := t.tokens, rides := t.rides, park := t.park,
        field := t.field, counters := t.counters }

/-- R95, R105, R132 to R134: TAKE; refusals and grants are counted as log 19 says. That a window keeps its capacity when
a TAKE refused RIDE_DOWN releases its hold, so that the whole party is freed, is the model's choice (log 25). -/
def Obligations.TakesMakeAPassOrAreRefused : Prop :=
  Sys2Proof.Claims.TakesAreRefusedInOrder ∧ Sys2Proof.Claims.GrantedTakesMakeAPass

/-- R136: a DROP from the hold's own kiosk in DAY releases the hold without an answer; from another it is refused; one
that names no hold, or comes outside DAY, changes nothing. -/
def Sys2Proof.Claims.DropsReleaseTheirHold : Prop :=
  (∀ rx s st slot h, Accepted dropRow rx s st → s.device = .day →
    holdWithId (u16At (bodyOf rx) 2) s = some (slot, h) → h.kiosk = rx.source.toNat →
    ∃ u, Runs (.drop rx) s u ∧ Released slot h (heardState rx st s) u ∧ u.expiredIds = s.expiredIds) ∧
  (∀ rx s st slot h, Accepted dropRow rx s st → s.device = .day →
    holdWithId (u16At (bodyOf rx) 2) s = some (slot, h) → h.kiosk ≠ rx.source.toNat →
    Runs (.drop rx) s (refusedTo rx 0x12 .notOwner 0 (heardState rx st s))) ∧
  ∀ rx s st, Accepted dropRow rx s st →
    s.device ≠ .day ∨ (∀ e ∈ s.holds, e.2.id ≠ u16At (bodyOf rx) 2) →
    Runs (.drop rx) s (heardState rx st s)

/-- R124, R137: a hold whose deadline is reached is released and its id remembered, the newest of at most 16 without
repetition; one not reached yet, or a free slot, changes nothing. -/
def Sys2Proof.Claims.HoldsExpireAtTheirDeadline : Prop :=
  (∀ slot (s : State) h, s.resetHeld = false → tblGet s.holds slot = some h → h.deadline ≤ s.clock.elapsed →
    s.expiredIds.length ≤ 16 →
    ∃ u, Runs (.holdExpiry slot) s u ∧ Released slot h s u ∧
      (h.id ∈ s.expiredIds ∨ s.expiredIds.length < 16 →
        u.expiredIds = s.expiredIds.filter (· ≠ h.id) ++ [h.id]) ∧
      (∀ oldest rest, s.expiredIds = oldest :: rest → s.expiredIds.length = 16 → h.id ∉ s.expiredIds →
        u.expiredIds = rest ++ [h.id]) ∧
      (s.expiredIds.Nodup → u.expiredIds.Nodup) ∧ u.expiredIds.length ≤ 16) ∧
  ∀ slot (s : State), s.resetHeld = false →
    tblGet s.holds slot = none ∨ (∃ h, tblGet s.holds slot = some h ∧ s.clock.elapsed < h.deadline) →
    Runs (.holdExpiry slot) s s

/-- R124, R136, R137: DROP and the expiry of a hold; an expiry that is not due does nothing (log 2), a window keeps its
capacity at a release (log 25), and a refused DROP is counted as log 19 says. -/
def Obligations.HoldsEndWithoutAPass : Prop :=
  Sys2Proof.Claims.DropsReleaseTheirHold ∧ Sys2Proof.Claims.HoldsExpireAtTheirDeadline

namespace Sys2Proof.Claims

open Sys2Proof.Machine

/-- An ISSUE_COURTESY whose parameter bytes are all there (R174). -/
structure AsksCourtesy (rx : MgmtRx) (s : State) : Prop where
  commanded : Commanded rx s
  long : 3 ≤ (params rx).length ∧ 3 + u8At (params rx) 2 ≤ (params rx).length

/-- One that passes the first six checks of R118. -/
structure CourtesyChecked (rx : MgmtRx) (s : State) (i party : Nat) (c : RideCfg) : Prop where
  asks : AsksCourtesy rx s
  inDay : s.device = .day
  names : u8At (params rx) 0 = i
  guests : u8At (params rx) 1 = party
  inRange : i ≤ 47
  party : 1 ≤ party ∧ party ≤ 8
  token : ¬ BadToken (tokenOf 2 (params rx)) s
  known : (rideAt i s).cfg = some c
  batch : c.batch ≠ 0

/-- REFUSED with a pass-book reason (R118). -/
abbrev refusedBecause (reason : MgmtReason) (why : RefuseReason) (extra : Nat) : Reply :=
  { result := .refused reason, adjusted := [], data := .passBookReason why extra }

/-- The token of an ISSUE_COURTESY, normalized. -/
abbrev courtesyToken (rx : MgmtRx) (s : State) : List Byte := normalized (tokenOf 2 (params rx)) s

end Sys2Proof.Claims

/-- R118: the checks of ISSUE_COURTESY in their order. -/
def Sys2Proof.Claims.CourtesyPassesAreCheckedInOrder : Prop :=
  (∀ rx s, AsksCourtesy rx s → s.device ≠ .day →
    Runs (.issueCourtesy rx) s (replied 0x12 rx (refused .wrongState) s)) ∧
  (∀ rx s, AsksCourtesy rx s → s.device = .day →
    47 < u8At (params rx) 0 ∨ u8At (params rx) 1 = 0 ∨ 8 < u8At (params rx) 1 →
    Runs (.issueCourtesy rx) s (replied 0x12 rx (refused .range) s)) ∧
  (∀ rx s, AsksCourtesy rx s → s.device = .day → u8At (params rx) 0 ≤ 47 → 1 ≤ u8At (params rx) 1 →
    u8At (params rx) 1 ≤ 8 →
    (BadToken (tokenOf 2 (params rx)) s →
      Runs (.issueCourtesy rx) s (replied 0x12 rx (refusedBecause .range .badToken 0) s)) ∧
    (¬ BadToken (tokenOf 2 (params rx)) s → (rideAt (u8At (params rx) 0) s).cfg = none →
      Runs (.issueCourtesy rx) s (replied 0x12 rx (refused .notFound) s)) ∧
    ∀ c, ¬ BadToken (tokenOf 2 (params rx)) s → (rideAt (u8At (params rx) 0) s).cfg = some c → c.batch = 0 →
      Runs (.issueCourtesy rx) s (replied 0x12 rx (refusedBecause .wrongState .noPasses 0) s)) ∧
  ∀ rx s i party c, CourtesyChecked rx s i party c →
    (∀ k p, passOn (courtesyToken rx s) i s = some (k, p) →
      Runs (.issueCourtesy rx) s (replied 0x12 rx (refusedBecause .wrongState .holdsPass (p.start.getD 0xFFFF)) s)) ∧
    (∀ slot h, passOn (courtesyToken rx s) i s = none → holdOn (courtesyToken rx s) i s = some (slot, h) →
      Runs (.issueCourtesy rx) s (replied 0x12 rx (refusedBecause .wrongState .holdsPass h.start) s)) ∧
    (passOn (courtesyToken rx s) i s = none → holdOn (courtesyToken rx s) i s = none →
      (atCourtesyLimit (courtesyToken rx s) s = true →
        Runs (.issueCourtesy rx) s (replied 0x12 rx (refusedBecause .full .limit 0) s)) ∧
      (atCourtesyLimit (courtesyToken rx s) s = false → 8192 - s.passes.length ≤ s.holds.length →
        Runs (.issueCourtesy rx) s
          (replied 0x12 rx (refusedBecause .full .bookFull 0) (report .bookFull i (8192 - s.passes.length) s))))

/-- R119: a taken ISSUE_COURTESY creates an ANYTIME pass without a window in the lowest free entry, appends it to its
token's list, raises the ride's passes granted, logs it and answers with its index; no GRANTS is counted. -/
def Sys2Proof.Claims.CourtesyPassesAreCreated : Prop :=
  ∀ rx s i party c k p, CourtesyChecked rx s i party c → passOn (courtesyToken rx s) i s = none →
    holdOn (courtesyToken rx s) i s = none → atCourtesyLimit (courtesyToken rx s) s = false →
    s.holds.length < 8192 - s.passes.length → tblWf s.passes → LowestFree k s →
    p = { token := courtesyToken rx s, ride := i, start := none, length := 0, party := party, admitted := 0,
          state := .anytime } →
    Runs (.issueCourtesy rx) s
      (replied 0x12 rx (done (.courtesyIndex k))
        (logged .courtesy k p party
          { s with
            passes := tblSet s.passes k p,
            tokens := (updToken p.token (fun r => { r with passes := r.passes ++ [k] }) s).tokens,
            rides := (setRide i { rideAt i s with
              totals := { (rideAt i s).totals with granted := (rideAt i s).totals.granted + 1 } } s).rides }))

/-- R118, R119: ISSUE_COURTESY. -/
def Obligations.CourtesyPasses : Prop :=
  Sys2Proof.Claims.CourtesyPassesAreCheckedInOrder ∧ Sys2Proof.Claims.CourtesyPassesAreCreated

/-! ## The return lane -/

namespace Sys2Proof.Claims

open Sys2Proof.Machine

/-- A REDEEM with a usable token and a guest count, in DAY, whose ride is configured and OPEN or HELD (Table 8-1). -/
structure Presented (rx : LineRx) (s : State) (st : Station) (i : Nat) (c : RideCfg) : Prop where
  about : AboutRide redeemRow rx s st i c
  inDay : s.device = .day
  token : ¬ BadToken (tokenOf 3 (bodyOf rx)) s
  guests : u8At (bodyOf rx) 2 ≠ 0
  moving : (rideAt i s).state = .opened ∨ (rideAt i s).state = .held

/-- The token of a REDEEM, normalized. -/
abbrev shownToken (rx : LineRx) (s : State) : List Byte := normalized (tokenOf 3 (bodyOf rx)) s

/-- Before the early limit, in day seconds; the limit may be negative (R143). -/
abbrev TooEarly (start : Nat) (c : RideCfg) (s : State) : Prop :=
  (nowSecond s : Int) < ((start : Int) - c.earlyGrace - if s.clock.state = .adrift then 5 else 0) * 60

/-- At or after the late limit, in day seconds (R143). -/
abbrev TooLate (start : Nat) (p : Pass) (c : RideCfg) (s : State) : Prop := lastMinute start p c s * 60 ≤ nowSecond s

/-- The release condition (R149). -/
structure MayRelease (r : Ride) (c : RideCfg) : Prop where
  known : r.cfg = some c
  opened : r.state = .opened
  batch : 0 < c.batch
  counted : c.threshold ≤ r.lane.mergeCounter
  waiting : 0 < r.lane.occupancy
  free : r.lane.outstanding = none
  heard : r.lane.gateSilence = false

/-- Where a RELEASE goes: the lowest MERGE_GATE bound to the ride, or all (R150). -/
abbrev ReleaseGoesTo (i dest : Nat) (s : State) : Prop :=
  (∃ before st after, s.stations = before ++ (dest, st) :: after ∧ (st.role = .mergeGate ∧ st.binding = some i) ∧
      ∀ e ∈ before, ¬ (e.2.role = .mergeGate ∧ e.2.binding = some i)) ∨
    (dest = 4095 ∧ ∀ e ∈ s.stations, ¬ (e.2.role = .mergeGate ∧ e.2.binding = some i))

end Sys2Proof.Claims

/-- R149, R150: when the release condition holds, a RELEASE of the smaller of K and R goes to the lowest merge gate of
the ride, the merge counter starts again, and the release is outstanding for 30 seconds; else nothing happens. -/
def Obligations.ReleasesAreSentWhenTheConditionHolds : Prop :=
  (∀ i (s : State) c dest b r, rideAt i s = r → MayRelease r c → ReleaseGoesTo i dest s →
    b = min c.batch r.lane.occupancy →
    testRelease i s =
      setRide i { r with lane := { r.lane with
          mergeCounter := 0, outstanding := some { batch := b, deadline := s.clock.elapsed + 30 } } }
        (broadcastTo .field dest (.release b) s)) ∧
  ∀ i (s : State), (∀ c, ¬ MayRelease (rideAt i s) c) → testRelease i s = s

/-- Table 8-1: a REDEEM is judged by its checks in order, and a refused one changes nothing else; refusals are counted
as log 19 says. -/
def Obligations.RedemptionsAreCheckedInOrder : Prop :=
  (∀ rx s st i, Accepted redeemRow rx s st → st.binding = some i →
    (s.device ≠ .day → Runs (.redeem rx) s (refusedTo rx 0x14 .dayClosed 0 (heardState rx st s))) ∧
    (s.device = .day → BadToken (tokenOf 3 (bodyOf rx)) s →
      Runs (.redeem rx) s (refusedTo rx 0x14 .badToken 0 (heardState rx st s))) ∧
    (s.device = .day → ¬ BadToken (tokenOf 3 (bodyOf rx)) s → u8At (bodyOf rx) 2 = 0 →
      Runs (.redeem rx) s (refusedTo rx 0x14 .badParty 0 (heardState rx st s))) ∧
    (s.device = .day → ¬ BadToken (tokenOf 3 (bodyOf rx)) s → u8At (bodyOf rx) 2 ≠ 0 →
      47 < i ∨ (rideAt i s).cfg = none →
      Runs (.redeem rx) s (refusedTo rx 0x14 .unknownRide 0 (heardState rx st s)))) ∧
  (∀ rx s st i c, AboutRide redeemRow rx s st i c → s.device = .day → ¬ BadToken (tokenOf 3 (bodyOf rx)) s →
    u8At (bodyOf rx) 2 ≠ 0 →
    ((rideAt i s).state = .closed → Runs (.redeem rx) s (refusedTo rx 0x14 .rideClosed 0 (heardState rx st s))) ∧
    ((rideAt i s).state = .down → Runs (.redeem rx) s (refusedTo rx 0x14 .rideDown 0 (heardState rx st s)))) ∧
  ∀ rx s st i c, Presented rx s st i c →
    (passOn (shownToken rx s) i s = none →
      Runs (.redeem rx) s (refusedTo rx 0x14 .noPass 0 (heardState rx st s))) ∧
    ∀ k p start, passOn (shownToken rx s) i s = some (k, p) → p.start = some start → p.state = .issued →
      ¬ Disrupted start p c s →
      (TooEarly start c s → Runs (.redeem rx) s (refusedTo rx 0x14 .early start (heardState rx st s))) ∧
      (¬ TooEarly start c s → TooLate start p c s →
        Runs (.redeem rx) s (refusedTo rx 0x14 .late 0 (heardState rx st s)))

/-- R142, R144, R146, R149: an eligible REDEEM logs the admission, raises the pass's admitted count or frees the pass,
raises the day total and R, renews the estimate when R leaves 0, reports what R at 9999 cannot take, tests the release
condition when R has risen, and answers with an ADMIT, counted as log 19 says. -/
def Obligations.RedemptionsAdmitGuests : Prop :=
  ∀ rx s st i c k p a, Presented rx s st i c → passOn (shownToken rx s) i s = some (k, p) →
    p.state = .anytime ∨ (∃ start, p.start = some start ∧
      (Disrupted start p c s ∨ (¬ TooEarly start c s ∧ ¬ TooLate start p c s))) →
    a = min (min (u8At (bodyOf rx) 2) 8) (p.party - p.admitted) →
    ∃ t, Runs (.redeem rx) s t ∧
      (p.admitted + a < p.party →
        t.passes = tblSet s.passes k { p with admitted := p.admitted + a } ∧ t.tokens = s.tokens) ∧
      (p.party ≤ p.admitted + a → t.passes = tblErase s.passes k ∧ t.tokens = (unlisted p.token k s).tokens) ∧
      (rideAt i t).totals =
        { (rideAt i s).totals with admissions := (rideAt i s).totals.admissions + BitVec.ofNat 32 a } ∧
      (rideAt i t).lane.occupancy = min 9999 ((rideAt i s).lane.occupancy + a) ∧
      (rideAt i t).cfg = some c ∧ (rideAt i t).state = (rideAt i s).state ∧ (rideAt i t).q = (rideAt i s).q ∧
      (rideAt i t).outages = (rideAt i s).outages ∧ (rideAt i t).ring = (rideAt i s).ring ∧
      (rideAt i t).recent = (rideAt i s).recent ∧ (rideAt i t).ignored = (rideAt i s).ignored ∧
      OtherRidesKept i s t ∧ t.counters.admits = min 65535 (s.counters.admits + 1) ∧
      ((rideAt i s).lane.occupancy + a ≤ 9999 →
        t.park = (logged .admission k p a (heardState rx st s)).park ∧
        t.reportQueue = (heardState rx st s).reportQueue) ∧
      (¬ MayRelease { rideAt i (heardState rx st s) with lane := { (rideAt i (heardState rx st s)).lane with
          occupancy := min 9999 ((rideAt i s).lane.occupancy + a) } } c →
        t.field =
          (answered rx (.admission (tagOf rx) a (p.party - (p.admitted + a))) (heardState rx st s)).field) ∧
      (∀ r r' v, rideAt i (heardState rx st s) = r →
        r' = withOccupancy (min 9999 (r.lane.occupancy + a))
          { r with totals := { r.totals with admissions := r.totals.admissions + BitVec.ofNat 32 a } } →
        v = clampReported i (r.lane.occupancy + a - 9999)
          (setRide i r' (logged .admission k p a (heardState rx st s))) →
        t = { bump .admits
            (answered rx (.admission (tagOf rx) a (p.party - (p.admitted + a)))
              (if r.lane.occupancy < min 9999 (r.lane.occupancy + a) then testRelease i v else v)) with
          passes := t.passes, tokens := t.tokens }) ∧
      t = { heardState rx st s with
        passes := t.passes, tokens := t.tokens, rides := t.rides, park := t.park, field := t.field,
        reportQueue := t.reportQueue, counters := t.counters }

/-- R146, R151, R153, R154: a RELEASED in DAY or CLOSING for a configured ride answers the outstanding release, with
its count held to the batch, or is late and reported; R is lowered. Elsewhere it has no effect. It goes on always. -/
def Sys2Proof.Claims.ReleasedFramesLowerTheLane : Prop :=
  (∀ rx s st i c o n r r', AboutRide releasedRow rx s st i c → s.device = .day ∨ s.device = .closing →
    rideAt i (heardState rx st s) = r → r.lane.outstanding = some o → n = min (u8At (bodyOf rx) 0) o.batch →
    r' = withOccupancy (r.lane.occupancy - n) r →
    Runs (.released rx) s
      (passedOn releasedRow rx
        (testRelease i
          (setRide i { r' with lane := { r'.lane with outstanding := none } }
            (clampReported i (n - r.lane.occupancy) (setRide i r' (heardState rx st s))))))) ∧
  (∀ rx s st i c n r, AboutRide releasedRow rx s st i c → s.device = .day ∨ s.device = .closing →
    rideAt i (heardState rx st s) = r → r.lane.outstanding = none → n = u8At (bodyOf rx) 0 →
    Runs (.released rx) s
      (passedOn releasedRow rx
        (report .releaseLate i n
          (clampReported i (n - r.lane.occupancy)
            (setRide i (withOccupancy (r.lane.occupancy - n) r) (heardState rx st s)))))) ∧
  ∀ rx s st, Accepted releasedRow rx s st → s.device = .ready ∨ BoundToNone st s →
    Runs (.released rx) s (passedOn releasedRow rx (heardState rx st s))

/-- R152: a release whose deadline is reached is removed and reported, R left as it was, and the condition tested; one
not reached yet, and a ride without one, are left as they are. -/
def Sys2Proof.Claims.ReleasesTimeOut : Prop :=
  (∀ i (s : State) o r, s.resetHeld = false → rideAt i s = r → r.lane.outstanding = some o →
    o.deadline ≤ s.clock.elapsed →
    Runs (.releaseTimeout i) s
      (testRelease i
        (report .releaseTimeout i o.batch (setRide i { r with lane := { r.lane with outstanding := none } } s)))) ∧
  ∀ i (s : State), (∀ o, (rideAt i s).lane.outstanding = some o → s.clock.elapsed < o.deadline) →
    Runs (.releaseTimeout i) s s

/-- R146, R151 to R154: RELEASED frames and the release deadline; one that is not due does nothing (log 2). -/
def Obligations.ReleasesEnd : Prop :=
  Sys2Proof.Claims.ReleasedFramesLowerTheLane ∧ Sys2Proof.Claims.ReleasesTimeOut

/-! ## Boards -/

namespace Sys2Proof.Claims

open Sys2Proof.Machine

/-- A BOARD frame that arrives on the park port in READY, DAY or CLOSING (R9). -/
structure BoardArrives (rx : LineRx) (s : State) : Prop where
  received : Receives .park s
  onPark : rx.port = .park
  long : LongEnough (8 + rx.rest.length)
  inService : s.device ≠ .unconfigured

/-- Its destination is the station of a record of the board table (R9). -/
abbrev OfBoard (rx : LineRx) (s : State) (index : Nat) (b : BoardRec) : Prop :=
  boardOf rx.dest.toNat s = some (index, b)

/-- A well-formed BOARD frame of `k` slots (R162). -/
structure BoardFits (rx : LineRx) (k : Nat) : Prop where
  envelope : EnvelopeFits rx
  count : u8At (bodyOf rx) 0 = k
  filled : 1 ≤ k
  body : (bodyOf rx).length = 1 + 6 * k

/-- Six bytes of a slot of a frame as it arrived (Table 1-3). -/
abbrev sentSlot (rx : LineRx) (j : Nat) : List Byte := ((bodyOf rx).drop (1 + 6 * j)).take 6

/-- The status symbol of a ride (Table 9-2): OPEN, CLOSED, DOWN, HELD, STALE. -/
abbrev StatusOf (r : Ride) (symbol : Nat) : Prop :=
  (symbol = 1 ∧ (r.cfg = none ∨ r.state = .closed)) ∨ (r.cfg ≠ none ∧
    ((symbol = 2 ∧ r.state = .down) ∨ (symbol = 3 ∧ r.state = .held) ∨
      (symbol = 4 ∧ r.state = .opened ∧ r.est.stale = true) ∨ (symbol = 0 ∧ r.state = .opened ∧ r.est.stale = false)))

/-- The pass symbol of a ride (R165): PASSES_OPEN, PASSES_OUT, NO_PASSES. -/
abbrev PassSymbolOf (i : Nat) (s : State) (symbol : Nat) : Prop :=
  (symbol = 7 ∧ ∀ c, (rideAt i s).cfg = some c → c.passShare = 0 ∨ c.batch = 0) ∨
    ∃ c, (rideAt i s).cfg = some c ∧ c.passShare ≠ 0 ∧ c.batch ≠ 0 ∧
      ((symbol = 6 ∧ nextReturn i s = 0xFFFF) ∨ (symbol = 5 ∧ nextReturn i s ≠ 0xFFFF))

/-- The wait of a ride (Table 9-2). -/
abbrev waitOf (r : Ride) : Nat :=
  if r.cfg ≠ none ∧ (r.state = .opened ∨ r.state = .held) then r.est.posted else 0xFFFF

end Sys2Proof.Claims

/-- Tables 9-1 and 9-2, R164, R165: what a slot that names a ride shows. -/
def Sys2Proof.Claims.SlotsShowTheirRide : Prop :=
  ∀ set i (s : State) status pass, i ≤ 47 → StatusOf (rideAt i s) status → PassSymbolOf i s pass →
    rideSlot set i s =
      { status := symbolCode set status s, wait := waitOf (rideAt i s), pass := symbolCode set pass s,
        next := nextReturn i s }

/-- R9, R162, R163, R167: a well-formed BOARD frame for a board is rewritten slot by slot, its length and all else
kept, and restarts the board's refresh when it finds room; a malformed one goes on as it arrived and is counted; a
frame for no board goes on unchanged. -/
def Sys2Proof.Claims.BoardFramesAreRewritten : Prop :=
  (∀ rx s index b k, BoardArrives rx s → OfBoard rx s index b → BoardFits rx k →
    ∃ out : LineRx, Runs (.board rx) s
        (if (portUnit .field s).linkUp = true ∧ (portUnit .field s).transit.length < 64 then
          placeTransit .field (lineFrame 0x30 out)
            { s with boards := tblSet s.boards index { b with deadline := s.clock.elapsed + b.interval } }
         else bump .transitDropField s) ∧
      out = { rx with rest := out.rest } ∧ out.rest.length = rx.rest.length ∧ out.rest.take 1 = rx.rest.take 1 ∧
      out.rest.drop rx.bodyLen.toNat = rx.rest.drop rx.bodyLen.toNat ∧
      (∀ j, j < k → (∀ spec, b.slots[j]? = some spec → spec.ride = none) → sentSlot out j = sentSlot rx j) ∧
      ∀ j spec i, j < k → b.slots[j]? = some spec → spec.ride = some i →
        sentSlot out j =
          (slotBytes (rideSlot b.symbolSet i s)).take (if spec.showNext then 6 else 4) ++
            (sentSlot rx j).drop (if spec.showNext then 6 else 4)) ∧
  (∀ rx s index b, BoardArrives rx s → OfBoard rx s index b → (∀ k, ¬ BoardFits rx k) →
    Runs (.board rx) s (placeTransit .field (lineFrame 0x30 rx) (bump .malformed s))) ∧
  ∀ rx s, BoardArrives rx s → boardOf rx.dest.toNat s = none →
    Runs (.board rx) s (placeTransit .field (lineFrame 0x30 rx) s)

/-- R9, R162 to R165, R167: BOARD frames and what a written slot shows. -/
def Obligations.BoardFramesAreRewritten : Prop :=
  Sys2Proof.Claims.SlotsShowTheirRide ∧ Sys2Proof.Claims.BoardFramesAreRewritten

/-- R168 to R170: a refresh deadline that is reached moves on by the interval in every device state; in READY and DAY a
composed frame of the record's slots goes to the field origin queue. One not reached yet does nothing (log 2). -/
def Obligations.BoardsRefreshThemselves : Prop :=
  (∀ index (s : State) b, s.resetHeld = false → tblGet s.boards index = some b → b.deadline ≤ s.clock.elapsed →
    s.device = .ready ∨ s.device = .day →
    ∃ slots, Runs (.boardRefresh index) s
        { broadcastTo .field b.station (.board slots) s with
          boards := tblSet s.boards index { b with deadline := s.clock.elapsed + b.interval } } ∧
      slots.length = b.slots.length ∧
      (∀ (j : Nat) (spec : SlotSpec), b.slots[j]? = some spec → spec.ride = none →
        slots[j]? = some { status := 0, wait := 0, pass := 0, next := 0 }) ∧
      ∀ (j : Nat) (spec : SlotSpec) i, b.slots[j]? = some spec → spec.ride = some i →
        slots[j]? = some { rideSlot b.symbolSet i s with
          next := if spec.showNext then nextReturn i s else 0xFFFF }) ∧
  (∀ index (s : State) b, s.resetHeld = false → tblGet s.boards index = some b → b.deadline ≤ s.clock.elapsed →
    s.device = .unconfigured ∨ s.device = .closing →
    Runs (.boardRefresh index) s
      { s with boards := tblSet s.boards index { b with deadline := s.clock.elapsed + b.interval } }) ∧
  ∀ index (s : State), (∀ b, tblGet s.boards index = some b → s.clock.elapsed < b.deadline) →
    Runs (.boardRefresh index) s s

namespace Sys2Proof.Claims

open Sys2Proof.Machine

/-- A LOAD_BOARD whose parameter bytes are all there, for an index, with a slot count (R174). -/
structure LoadsBoard (rx : MgmtRx) (s : State) (index count : Nat) : Prop where
  commanded : Commanded rx s
  long : 7 ≤ (params rx).length ∧ 7 + 2 * count ≤ (params rx).length
  names : u8At (params rx) 0 = index
  counts : u8At (params rx) 6 = count

/-- The checks of R159 after the index and the slot count. -/
abbrev BoardChecks (rx : MgmtRx) (s : State) (index count : Nat) : Prop :=
  StationNumberOk (u16At (params rx) 1) s ∧ (∀ e ∈ s.boards, e.1 ≠ index → e.2.station ≠ u16At (params rx) 1) ∧
    u8At (params rx) 3 ≤ 7 ∧ count ≤ 16 ∧
    ∀ j < count, u8At (params rx) (7 + 2 * j) ≤ 47 ∨ u8At (params rx) (7 + 2 * j) = 255

/-- The slot that an entry of a LOAD_BOARD loads. -/
abbrev loadedSlot (rx : MgmtRx) (j : Nat) : SlotSpec :=
  { ride := if u8At (params rx) (7 + 2 * j) = 255 then none else some (u8At (params rx) (7 + 2 * j)),
    showNext := decide (u8At (params rx) (8 + 2 * j) ≠ 0) }

end Sys2Proof.Claims

/-- R159, R160, R161: LOAD_BOARD makes or replaces a record and starts its refresh deadline, or removes one;
LOAD_SYMBOLS replaces a set's eight codes. Station numbers above 4095 are refused RANGE by log 16. -/
def Obligations.BoardsAndSymbolsAreLoaded : Prop :=
  (∀ rx s index count w interval b, LoadsBoard rx s index count → index ≤ 63 → count ≠ 0 →
    BoardChecks rx s index count → u16At (params rx) 4 = w → interval = max 10 (min 600 w) →
    b = { station := u16At (params rx) 1, symbolSet := u8At (params rx) 3, interval := interval,
          deadline := s.clock.elapsed + interval, slots := (List.range count).map (loadedSlot rx) } →
    Runs (.loadBoard rx) s
      (replied 0x08 rx (doneOrClamped (if w = interval then [] else [4]) .empty)
        { s with boards := tblSet s.boards index b })) ∧
  (∀ rx s index count, LoadsBoard rx s index count →
    63 < index ∨ (count ≠ 0 ∧ ¬ BoardChecks rx s index count) →
    Runs (.loadBoard rx) s (replied 0x08 rx (refused .range) s)) ∧
  (∀ rx s index b, LoadsBoard rx s index 0 → index ≤ 63 → tblGet s.boards index = some b →
    Runs (.loadBoard rx) s (replied 0x08 rx (done .empty) { s with boards := tblErase s.boards index })) ∧
  (∀ rx s index, LoadsBoard rx s index 0 → index ≤ 63 → tblGet s.boards index = none →
    Runs (.loadBoard rx) s (replied 0x08 rx (refused .notFound) s)) ∧
  (∀ rx s set, Commanded rx s → 9 ≤ (params rx).length → u8At (params rx) 0 = set → set ≤ 7 →
    s.symbols.length = 8 →
    ∃ u, Runs (.loadSymbols rx) s (replied 0x09 rx (done .empty) u) ∧
      (∀ symbol < 8, (symbolCode set symbol u).toNat = u8At (params rx) (1 + symbol)) ∧
      (∀ other symbol, other ≠ set → symbolCode other symbol u = symbolCode other symbol s) ∧
      u = { s with symbols := u.symbols }) ∧
  ∀ rx s, Commanded rx s → 9 ≤ (params rx).length → 7 < u8At (params rx) 0 →
    Runs (.loadSymbols rx) s (replied 0x09 rx (refused .range) s)

/-! ## Management -/

namespace Sys2Proof.Claims

open Sys2Proof.Machine

/-- Table 1-5: command codes, the commands, and the parameter bytes each requires before its own checks (Table 10-2). -/
def commandRows : List (Nat × (MgmtRx → Instr) × Nat) :=
  [(0x01, .identify, 0), (0x02, .loadPark, 3), (0x03, .loadClass, 3), (0x04, .loadStation, 6),
   (0x05, .removeStation, 2), (0x06, .loadRide, 15), (0x07, .unloadRide, 1), (0x08, .loadBoard, 7),
   (0x09, .loadSymbols, 9), (0x0A, .makeReady, 0), (0x0B, .dayBegin, 0), (0x0C, .dayEnd, 0), (0x0D, .purge, 0),
   (0x0E, .openRide, 1), (0x0F, .closeRide, 1), (0x10, .setQueue, 5), (0x11, .setMask, 1), (0x12, .issueCourtesy, 3),
   (0x13, .cancelPass, 2), (0x14, .queryRide, 1), (0x15, .queryWindows, 1), (0x16, .queryToken, 1),
   (0x17, .queryPasses, 3), (0x18, .queryStations, 2), (0x19, .readCounters, 1)]

/-- The commands whose first parameter names a configured ride, with no other check before it. -/
def rideCommandRows : List (Nat × (MgmtRx → Instr) × Nat) :=
  [(0x07, .unloadRide, 1), (0x0E, .openRide, 1), (0x0F, .closeRide, 1), (0x10, .setQueue, 5), (0x14, .queryRide, 1),
   (0x15, .queryWindows, 1)]

/-- A park setting after its clamp (R177). -/
abbrev between (low high v : Nat) : Nat := max low (min high v)

/-- The DAY_STATE report (R173). -/
abbrev dayReported (detail : Nat) (s : State) : State := report .dayState 0 detail s

/-- The RIDE_STATE reports of the rides that DAY_END closes, in increasing order of ride index (R48, R180). -/
abbrev closuresReported (s : State) : State :=
  (List.range 48).foldl
    (fun t i => if (rideAt i s).state = .closed then t else changeReported i (rideAt i s).state .closed t) s

/-- The live passes a PURGE frees (R181). -/
abbrev InBatch (cursor k : Nat) : Prop := cursor ≤ k ∧ k < min (cursor + 1024) 8192

end Sys2Proof.Claims

/-- R8: a MGMT frame for another station is forwarded, one on the field port is dropped and counted, and a malformed
one is dropped and counted; none is answered. -/
def Sys2Proof.Claims.mgmtSetAside (code : Nat) (command : MgmtRx → Instr) : Prop :=
  ∀ (rx : MgmtRx) s, Receives rx.port s → LongEnough (9 + rx.tail.length) →
    (rx.dest.toNat ≠ ownStation s →
      Runs (command rx) s
        (placeTransit (otherPort rx.port) (lineFrame 0x40 (mgmtLine (BitVec.ofNat 8 code) rx)) s)) ∧
    (rx.dest.toNat = ownStation s → rx.port = .field → Runs (command rx) s (bump .wrongPortMgmt s)) ∧
    (rx.dest.toNat = ownStation s → rx.port = .park →
      ¬ (rx.bodyLen.toNat ≤ 1188 ∧ rx.bodyLen.toNat ≤ 1 + rx.tail.length) ∨ rx.bodyLen.toNat < 3 →
      Runs (command rx) s (bump .malformed s))

/-- R8, for every command of Table 1-5 and for every code that is in no row of it. -/
def Sys2Proof.Claims.MgmtFramesThatAreNotCommands : Prop :=
  (∀ e ∈ commandRows, mgmtSetAside e.1 e.2.1) ∧
    ∀ code : Byte, code = 0 ∨ 0x19 < code.toNat → mgmtSetAside code.toNat (.unknownCommand code)

/-- R174: an unknown command code is refused UNKNOWN_COMMAND; a command with too few parameter bytes is refused RANGE,
token bytes and slot entries included. R43, R47, R59, R102, R184, R185: a ride index above 47 is RANGE and an
unconfigured ride NOT_FOUND. -/
def Sys2Proof.Claims.CommandsAreJudgedBeforeTheirRules : Prop :=
  (∀ code rx s, Commanded rx s → code = 0 ∨ 0x19 < code.toNat →
    Runs (.unknownCommand code rx) s (replied code.toNat rx (refused .unknownCommand) s)) ∧
  (∀ e ∈ commandRows, ∀ rx s, Commanded rx s → (params rx).length < e.2.2 →
    Runs (e.2.1 rx) s (replied e.1 rx (refused .range) s)) ∧
  (∀ rx s, Commanded rx s → 3 ≤ (params rx).length → (params rx).length < 3 + u8At (params rx) 2 →
    Runs (.issueCourtesy rx) s (replied 0x12 rx (refused .range) s)) ∧
  (∀ rx s, Commanded rx s → 1 ≤ (params rx).length → (params rx).length < 1 + u8At (params rx) 0 →
    Runs (.queryToken rx) s (replied 0x16 rx (refused .range) s)) ∧
  (∀ rx s, Commanded rx s → 7 ≤ (params rx).length → (params rx).length < 7 + 2 * u8At (params rx) 6 →
    Runs (.loadBoard rx) s (replied 0x08 rx (refused .range) s)) ∧
  ∀ e ∈ rideCommandRows, ∀ rx s, Commanded rx s → e.2.2 ≤ (params rx).length →
    (47 < u8At (params rx) 0 → Runs (e.2.1 rx) s (replied e.1 rx (refused .range) s)) ∧
    (u8At (params rx) 0 ≤ 47 → (rideAt (u8At (params rx) 0) s).cfg = none →
      Runs (e.2.1 rx) s (replied e.1 rx (refused .notFound) s))

/-- R8, R174: what becomes of a MGMT frame before its command's own rule; R43, R47, R59, R102, R184, R185: the ride
index of the six commands that name a ride first. -/
def Obligations.MgmtFramesAreJudgedFirst : Prop :=
  Sys2Proof.Claims.MgmtFramesThatAreNotCommands ∧ Sys2Proof.Claims.CommandsAreJudgedBeforeTheirRules

/-- R177, R190: LOAD_PARK stores the three park settings, clamped, in UNCONFIGURED and READY; SET_MASK stores a level
of 15 or less. -/
def Obligations.ParkSettingsAndMask : Prop :=
  (∀ rx s limit pad hold, Commanded rx s → 3 ≤ (params rx).length → s.device = .unconfigured ∨ s.device = .ready →
    u8At (params rx) 0 = limit → (params rx)[1]? = some pad → u8At (params rx) 2 = hold →
    ∀ d, d = { tokenLimit := between 1 4 limit, pad := pad, holdTime := between 5 60 hold } →
      Runs (.loadPark rx) s
        (replied 0x02 rx
          (doneOrClamped ((if between 1 4 limit = limit then [] else [1]) ++
            (if between 5 60 hold = hold then [] else [3])) (.parkSettings d))
          { s with settings := d })) ∧
  (∀ rx s, Commanded rx s → 3 ≤ (params rx).length → s.device = .day ∨ s.device = .closing →
    Runs (.loadPark rx) s (replied 0x02 rx (refused .wrongState) s)) ∧
  (∀ rx s level, Commanded rx s → 1 ≤ (params rx).length → u8At (params rx) 0 = level → level ≤ 15 →
    Runs (.setMask rx) s (replied 0x11 rx (done (.mask level)) { s with reportMask := level })) ∧
  ∀ rx s, Commanded rx s → 1 ≤ (params rx).length → 15 < u8At (params rx) 0 →
    Runs (.setMask rx) s (replied 0x11 rx (refused .range) s)

/-- R84, R173, R178, R179: MAKE_READY leaves UNCONFIGURED once a station is loaded; DAY_BEGIN opens a park day once the
clock is set: day records cleared, rings built, offers and expired ids forgotten, merge state cleared, and the device
state reported. -/
def Sys2Proof.Claims.TheDayBegins : Prop :=
  (∀ rx s, Commanded rx s → s.device = .unconfigured → s.stations ≠ [] →
    Runs (.makeReady rx) s (replied 0x0A rx (done .empty) (dayReported 0x0001 { s with device := .ready }))) ∧
  (∀ rx s, Commanded rx s → s.device ≠ .unconfigured →
    Runs (.makeReady rx) s (replied 0x0A rx (refused .wrongState) s)) ∧
  (∀ rx s, Commanded rx s → s.device = .unconfigured → s.stations = [] →
    Runs (.makeReady rx) s (replied 0x0A rx (refused .incomplete) s)) ∧
  (∀ rx s, Commanded rx s → s.device = .ready → s.clock.state ≠ .unset →
    ∃ u, Runs (.dayBegin rx) s
        (replied 0x0B rx
          (done (.ringsBuilt ((List.range 48).filter (fun i => (rideAt i s).cfg.isSome)).length)) u) ∧
      u.device = .day ∧ u.expiredIds = [] ∧
      (∀ i ≤ 47, ∀ r, rideAt i s = r →
        rideAt i u = { r with
          state := .closed, outages := [], ignored := 0, recent := [],
          totals := { entries := 0, boardings := 0, admissions := 0, granted := 0, seats := 0 },
          lane := { r.lane with mergeCounter := 0, outstanding := none },
          ring := match r.cfg with
            | some c => freshRing (nowMinute s) c.windowLength
                (capacityOf (classRate c.classNo s) c.passShare c.windowLength) (fun _ => 0)
            | none => r.ring }) ∧
      u.park = (dayReported 0x0102 s).park ∧ u.reportQueue = (dayReported 0x0102 s).reportQueue ∧
      u.counters = (dayReported 0x0102 s).counters ∧
      u = { s with device := .day, expiredIds := [], rides := u.rides, park := u.park, reportQueue := u.reportQueue,
                   counters := u.counters }) ∧
  (∀ rx s, Commanded rx s → s.device ≠ .ready → Runs (.dayBegin rx) s (replied 0x0B rx (refused .wrongState) s)) ∧
  ∀ rx s, Commanded rx s → s.device = .ready → s.clock.state = .unset →
    Runs (.dayBegin rx) s (replied 0x0B rx (refused .incomplete) s)

/-- R138, R173, R180: DAY_END closes every OPEN, HELD and DOWN ride with its outage and its holds, whose room goes back and
whose tokens' hold counts fall, ride after ride, reporting each, sets the purge cursor to 0 and enters CLOSING with a
DAY_STATE report after those of the rides; passes, totals, rings' grants, occupancies and outstanding releases stay. That
a window keeps its capacity is the model's choice (log 25). -/
def Sys2Proof.Claims.TheDayEnds : Prop :=
  (∀ rx s, Commanded rx s → s.device = .day → tblWf s.holds →
    ∃ u, Runs (.dayEnd rx) s
        (replied 0x0C rx
          (done (.dayEnded ((List.range 48).filter (fun i => (rideAt i s).state ≠ .closed)).length s.passes.length))
          u) ∧
      u.device = .closing ∧ u.purgeCursor = some 0 ∧
      (∀ i ≤ 47, ∀ r, rideAt i s = r → (rideAt i u).state = .closed ∧
        (rideAt i u).outages =
          (if r.state = .down then withOutageClosed (nowSecond s) r.outages else r.outages) ∧
        (rideAt i u).est = r.est ∧ (rideAt i u).lane = r.lane ∧ RideKept r (rideAt i u) ∧
        (rideAt i u).ring.map (fun w => (w.start, w.capacity, w.issued, w.held)) =
          r.ring.map (fun w => (w.start, w.capacity, w.issued,
            w.held - if r.state = .closed then 0 else guestsHeld i w.start s))) ∧
      u.holds = s.holds.filter (fun e => 47 < e.2.ride ∨ (rideAt e.2.ride s).state = .closed) ∧
      u.tokens = (holdsLowered
        ((List.range 48).flatMap
          (fun i => s.holds.filter (fun e => e.2.ride = i ∧ (rideAt i s).state ≠ .closed))) s).tokens ∧
      u.park = (dayReported 0x0203 (closuresReported s)).park ∧
      u.reportQueue = (dayReported 0x0203 (closuresReported s)).reportQueue ∧
      u.counters = (dayReported 0x0203 (closuresReported s)).counters ∧
      u = { s with device := .closing, purgeCursor := some 0, rides := u.rides, holds := u.holds,
                   tokens := u.tokens, park := u.park, reportQueue := u.reportQueue, counters := u.counters }) ∧
  ∀ rx s, Commanded rx s → s.device ≠ .day → Runs (.dayEnd rx) s (replied 0x0C rx (refused .wrongState) s)

/-- R84, R138, R173, R178 to R180: MAKE_READY, DAY_BEGIN and DAY_END; a window keeps its capacity when its holds are
released (log 25). -/
def Obligations.TheDayBeginsAndEnds : Prop :=
  Sys2Proof.Claims.TheDayBegins ∧ Sys2Proof.Claims.TheDayEnds

/-- R181, R182: a PURGE frees the live passes of up to 1024 entries from the purge cursor, off their tokens' lists and
without a log; the one that leaves no pass removes the rings and the cursor and enters READY. -/
def Obligations.PurgesEmptyThePassTable : Prop :=
  (∀ rx (s : State) cursor batch, Commanded rx s → s.device = .closing → s.purgeCursor = some cursor → tblWf s.passes →
    batch = s.passes.filter (fun e : Nat × Pass => InBatch cursor e.1) →
    ∀ u, u = { s with passes := s.passes.filter (fun e => ¬ InBatch cursor e.1),
                      tokens := (batch.foldl (fun (t : State) (e : Nat × Pass) => unlisted e.2.token e.1 t) s).tokens } →
      (u.passes ≠ [] →
        Runs (.purge rx) s
          (replied 0x0D rx
            { result := .inPart, adjusted := [],
              data := .purged (min (cursor + 1024) 8192) batch.length u.passes.length }
            { u with purgeCursor := some (min (cursor + 1024) 8192) })) ∧
      (u.passes = [] →
        Runs (.purge rx) s
          (replied 0x0D rx
            (done (.purged (match batch.getLast? with | some e => e.1 + 1 | none => cursor) batch.length 0))
            (dayReported 0x0301
              { u with device := .ready, purgeCursor := none,
                       rides := s.rides.map (fun r : Ride => { r with ring := [] }) })))) ∧
  ∀ rx s, Commanded rx s → s.device ≠ .closing → Runs (.purge rx) s (replied 0x0D rx (refused .wrongState) s)

/-! ## Queries -/

/-- R83, R101, R102, R131, R158, R176, R185: IDENTIFY, QUERY_RIDE and QUERY_WINDOWS answer with the values as they
stand and change nothing. -/
def Sys2Proof.Claims.StateQueriesChangeNothing : Prop :=
  (∀ rx s, Commanded rx s →
    Runs (.identify rx) s
      (replied 0x01 rx
        (done (.identity
          { ownStation := ownStation s, device := s.device, clock := s.clock.state, daySecond := s.clock.parkTime,
            elapsed := s.clock.elapsed, stations := s.stations.length,
            rides := (s.rides.filter (fun r => r.cfg.isSome)).length, boards := s.boards.length,
            livePasses := s.passes.length, holds := s.holds.length, purgeCursor := s.purgeCursor })) s)) ∧
  (∀ rx s i c r, NamesRide rx s 1 i c → rideAt i s = r →
    ∀ batch seconds, (r.lane.outstanding = none → batch = 0 ∧ seconds = 0) →
      (∀ o, r.lane.outstanding = some o → batch = o.batch ∧ seconds = o.deadline - s.clock.elapsed) →
      Runs (.queryRide rx) s
        (replied 0x14 rx
          (done (.ride
            { cfg := c, state := r.state, noControl := r.noControl, outages := r.outages, q := r.q,
              totals := r.totals, ignored := r.ignored, throughput := r.est.throughput,
              standbyRate := r.est.standbyRate, rawWait := r.est.rawWait, posted := r.est.posted,
              stale := r.est.stale, mark := r.est.mark, carry := r.est.carry, nextReturn := nextReturn i s,
              holds := (s.holds.filter (fun e => e.2.ride = i)).length,
              recentOffers := (r.recent.filter (fun t => s.clock.elapsed < t + c.interval)).length,
              livePasses := (s.passes.filter (fun e => e.2.ride = i)).length, occupancy := r.lane.occupancy,
              mergeCounter := r.lane.mergeCounter, releaseBatch := batch, releaseSeconds := seconds })) s)) ∧
  ∀ rx s i c, NamesRide rx s 1 i c →
    Runs (.queryWindows rx) s (replied 0x15 rx (done (.windows c.windowLength (rideAt i s).ring)) s)

namespace Sys2Proof.Claims

open Sys2Proof.Machine

/-- One pass of an answer (R121). -/
abbrev answeredPass (k : Nat) (p : Pass) (s : State) : PassEntry :=
  { index := k, ride := p.ride, start := p.start, length := p.length, party := p.party, admitted := p.admitted,
    state := p.state, disrupted := decide (p.state = .anytime) || disrupted p s }

/-- The passes of a ride from a cursor (R186). -/
abbrev walkedPasses (i cursor : Nat) (s : State) : List (Nat × Pass) :=
  s.passes.filter (fun e => e.2.ride = i ∧ cursor ≤ e.1)

/-- The answered records of passes (R186). -/
abbrev answeredPasses (found : List (Nat × Pass)) (s : State) : List (PassEntry × List Byte) :=
  found.map (fun e => (answeredPass e.1 e.2 s, e.2.token))

/-- The station records from a cursor (R187). -/
abbrev walkedStations (cursor : Nat) (s : State) : List (Nat × Station) := s.stations.filter (fun e => cursor ≤ e.1)

/-- The answered records of stations (R187). -/
abbrev answeredStations (found : List (Nat × Station)) (s : State) : List StationEntry :=
  found.map (fun e =>
    { number := e.1, role := e.2.role, binding := e.2.binding, window := e.2.window, supervision := e.2.supervision,
      remaining := match e.2.deadline with | some d => d - s.clock.elapsed | none => 0, baseline := e.2.baseline })

/-- PARTIAL with data (R175). -/
abbrev partly (data : AnswerData) : Reply := { result := .inPart, adjusted := [], data := data }

end Sys2Proof.Claims

/-- R121: QUERY_TOKEN answers with a token's hold count and its live passes in grant order; a bad token is RANGE. -/
def Sys2Proof.Claims.TokenQueriesListThePasses : Prop :=
  (∀ rx s, Commanded rx s → 1 ≤ (params rx).length → 1 + u8At (params rx) 0 ≤ (params rx).length →
    BadToken (tokenOf 0 (params rx)) s → Runs (.queryToken rx) s (replied 0x16 rx (refused .range) s)) ∧
  (∀ rx s, Commanded rx s → 1 ≤ (params rx).length → 1 + u8At (params rx) 0 ≤ (params rx).length →
    ¬ BadToken (tokenOf 0 (params rx)) s → tokenRec (normalized (tokenOf 0 (params rx)) s) s = none →
    Runs (.queryToken rx) s (replied 0x16 rx (done (.token 0 [])) s)) ∧
  ∀ rx s r entries, Commanded rx s → 1 ≤ (params rx).length → 1 + u8At (params rx) 0 ≤ (params rx).length →
    ¬ BadToken (tokenOf 0 (params rx)) s → tokenRec (normalized (tokenOf 0 (params rx)) s) s = some r →
    r.passes.map (tblGet s.passes) = entries.map some →
    Runs (.queryToken rx) s
      (replied 0x16 rx
        (done (.token r.holds ((r.passes.zip entries).map (fun e => answeredPass e.1 e.2 s)))) s)

/-- R186, R187: QUERY_PASSES and QUERY_STATIONS walk their tables from a cursor, 24 passes and 32 stations at a time,
PARTIAL with the next cursor while more lie beyond, and change nothing. -/
def Sys2Proof.Claims.TableQueriesWalkInParts : Prop :=
  (∀ rx s, Commanded rx s → 3 ≤ (params rx).length → 47 < u8At (params rx) 0 ∨ 8191 < u16At (params rx) 1 →
    Runs (.queryPasses rx) s (replied 0x17 rx (refused .range) s)) ∧
  (∀ rx s, Commanded rx s → 3 ≤ (params rx).length → u8At (params rx) 0 ≤ 47 → u16At (params rx) 1 ≤ 8191 →
    (rideAt (u8At (params rx) 0) s).cfg = none →
    Runs (.queryPasses rx) s (replied 0x17 rx (refused .notFound) s)) ∧
  (∀ rx s i c cursor, NamesRide rx s 3 i c → u16At (params rx) 1 = cursor → cursor ≤ 8191 →
    ((walkedPasses i cursor s).length ≤ 24 →
      Runs (.queryPasses rx) s
        (replied 0x17 rx
          (done (.passes i (8192 - s.passes.length) (answeredPasses (walkedPasses i cursor s) s) none)) s)) ∧
    ∀ first k p beyond, walkedPasses i cursor s = first ++ (k, p) :: beyond → first.length = 23 → beyond ≠ [] →
      Runs (.queryPasses rx) s
        (replied 0x17 rx
          (partly (.passes i (8192 - s.passes.length) (answeredPasses (first ++ [(k, p)]) s) (some (k + 1)))) s)) ∧
  (∀ rx s, Commanded rx s → 2 ≤ (params rx).length → 4095 < u16At (params rx) 0 →
    Runs (.queryStations rx) s (replied 0x18 rx (refused .range) s)) ∧
  ∀ rx s cursor, Commanded rx s → 2 ≤ (params rx).length → u16At (params rx) 0 = cursor → cursor ≤ 4095 →
    ((walkedStations cursor s).length ≤ 32 →
      Runs (.queryStations rx) s
        (replied 0x18 rx
          (done (.stations s.stations.length (answeredStations (walkedStations cursor s) s) none)) s)) ∧
    ∀ first n st beyond, walkedStations cursor s = first ++ (n, st) :: beyond → first.length = 31 → beyond ≠ [] →
      Runs (.queryStations rx) s
        (replied 0x18 rx
          (partly (.stations s.stations.length (answeredStations (first ++ [(n, st)]) s) (some (n + 1)))) s)

/-- R83, R101, R102, R121, R131, R158, R176, R185 to R187: IDENTIFY and the queries. -/
def Obligations.QueriesChangeNothing : Prop :=
  Sys2Proof.Claims.StateQueriesChangeNothing ∧
    Sys2Proof.Claims.TokenQueriesListThePasses ∧
    Sys2Proof.Claims.TableQueriesWalkInParts

/-! ## Frames on the park side, and on the wire -/

/-- R5, R9: BOARD and TIME frames go on unchanged in UNCONFIGURED and from the field port; a TIME frame that is
malformed is counted and goes on. -/
def Sys2Proof.Claims.ParkFramesThatPassThrough : Prop :=
  (∀ (rx : LineRx) s, Receives rx.port s → LongEnough (8 + rx.rest.length) →
    s.device = .unconfigured ∨ rx.port = .field →
    Runs (.board rx) s (placeTransit (otherPort rx.port) (lineFrame 0x30 rx) s) ∧
      Runs (.time rx) s (placeTransit (otherPort rx.port) (lineFrame 0x31 rx) s)) ∧
  ∀ (rx : LineRx) s, BoardArrives rx s →
    ¬ EnvelopeFits rx ∨ (bodyOf rx).length ≠ 4 ∨ 129599 < u32At (bodyOf rx) 0 →
    Runs (.time rx) s (placeTransit .field (lineFrame 0x31 rx) (bump .malformed s))

/-- R1, R5, R8, R9: the frames that are discarded, counted, forwarded or dropped without reaching a block. -/
def Obligations.FramesThatReachNoBlock : Prop :=
  Sys2Proof.Claims.FramesThatReachNoBlock ∧ Sys2Proof.Claims.ParkFramesThatPassThrough

/-- R4, Table 1-1: an originated frame on the wire: format, kind, the own station number as source, the destination, the
exact body length, the body, and padding up to the Ethernet minimum and no further. -/
def Sys2Proof.Claims.OriginatedFramesOnTheWire : Prop :=
  ∀ (f : OriginFrame), f.source < 65536 → f.dest < 65536 → (bodyBytes f.body).length < 65536 →
    (wireFrame f).ethDst = f.ethDst ∧ (wireFrame f).ethSrc.toNat = 0x025116000000 + f.source ∧
    (wireFrame f).ethType = 0x9C5E ∧
    ∃ rx padding, readLine .park (wireFrame f) = some (BitVec.ofNat 8 (bodyKind f.body), rx) ∧
      rx.source.toNat = f.source ∧ rx.dest.toNat = f.dest ∧ rx.bodyLen.toNat = (bodyBytes f.body).length ∧
      rx.rest = bodyBytes f.body ++ padding ∧
      (wireFrame f).payload.length = max 46 (8 + (bodyBytes f.body).length)

namespace Sys2Proof.Claims

open Sys2Proof.Machine

/-- A one-byte field. -/
abbrev one (n : Nat) : List Byte := [BitVec.ofNat 8 n]

/-- A two-byte field, most significant byte first (spec 00, Conventions). -/
abbrev two (n : Nat) : List Byte := [BitVec.ofNat 8 (n / 256), BitVec.ofNat 8 n]

/-- A four-byte field, most significant byte first. -/
abbrev four (n : Nat) : List Byte := two (n / 65536) ++ two n

/-- A park second, FFFFFFFFH while park time is absent (R26). -/
abbrev parkSecond (t : Option Nat) : List Byte := match t with | some n => four n | none => [255, 255, 255, 255]

/-- A body of this kind code and of these bytes. -/
abbrev WrittenAs (body : Body) (kind : Nat) (bytes : List Byte) : Prop := bodyKind body = kind ∧ bodyBytes body = bytes

/-- Table 1-4, REFUSE reasons. -/
def refuseRows : List (RefuseReason × Nat) :=
  [(.dayClosed, 0x01), (.badToken, 0x02), (.badParty, 0x03), (.unknownRide, 0x04), (.rideClosed, 0x05),
   (.rideDown, 0x06), (.rideHeld, 0x07), (.noControl, 0x08), (.noPasses, 0x09), (.clock, 0x0A), (.holdsPass, 0x0B),
   (.limit, 0x0C), (.bookFull, 0x0D), (.busyRetry, 0x0E), (.noWindow, 0x0F), (.unknownHold, 0x10), (.notOwner, 0x11),
   (.expired, 0x12), (.cancelLate, 0x13), (.noPass, 0x14), (.early, 0x15), (.late, 0x16)]

/-- Table 1-4, REPORT kinds, with their levels (Table 11-1). -/
def reportRows : List (ReportKind × Nat × Nat) :=
  [(.clockState, 0x01, 12), (.clockJump, 0x02, 7), (.stationSilent, 0x03, 10), (.stationLive, 0x04, 3),
   (.rideState, 0x05, 9), (.dayState, 0x06, 9), (.outageMerged, 0x07, 6), (.counterRestart, 0x08, 5),
   (.queueClamp, 0x09, 4), (.releaseTimeout, 0x0A, 8), (.releaseLate, 0x0B, 3), (.bookFull, 0x0C, 11),
   (.holdsFull, 0x0D, 6)]

/-- Table 1-4, PASSLOG events. -/
def eventRows : List (PassEvent × Nat) :=
  [(.grant, 0x01), (.courtesy, 0x02), (.admission, 0x03), (.cancel, 0x04), (.expire, 0x05), (.disrupted, 0x06)]

/-- MGMTANS results with their reason bytes (Table 1-4 and the note under it). -/
def resultRows : List (MgmtResult × Nat × Nat) :=
  [(.done, 0x00, 0x00), (.clamped, 0x01, 0x00), (.inPart, 0x02, 0x00), (.refused .wrongState, 0x03, 0x01),
   (.refused .range, 0x03, 0x02), (.refused .notFound, 0x03, 0x03), (.refused .full, 0x03, 0x04),
   (.refused .incomplete, 0x03, 0x05), (.refused .unknownCommand, 0x03, 0x06)]

end Sys2Proof.Claims

/-- R4, R195, Tables 1-2, 1-3, 1-4 and 11-1: the kind code and the body of each kind that the part originates, field by
field. The data bytes of a MGMTANS follow its reason: none when the data is empty (R175), and otherwise of a layout that
is given for the counters of READ_COUNTERS alone (log 1). -/
def Sys2Proof.Claims.OriginatedBodies : Prop :=
  (∀ tag hold ride start length seconds, WrittenAs (.offer tag hold ride start length seconds) 0x20
    (two tag ++ two hold ++ one ride ++ two start ++ one length ++ one seconds)) ∧
  (∀ tag pass ride start length party, WrittenAs (.grant tag pass ride start length party) 0x21
    (two tag ++ two pass ++ one ride ++ two start ++ one length ++ one party)) ∧
  (∀ e ∈ refuseRows, ∀ tag kind extra, WrittenAs (.refuse tag kind e.1 extra) 0x22
    (two tag ++ one kind ++ one e.2 ++ two extra)) ∧
  (∀ tag admitted remaining, WrittenAs (.admission tag admitted remaining) 0x23
    (two tag ++ one admitted ++ one remaining)) ∧
  (∀ batch, WrittenAs (.release batch) 0x24 (one batch)) ∧
  (∀ slots, WrittenAs (.board slots) 0x30
    (one slots.length ++ (slots.map (fun b => [b.status] ++ two b.wait ++ [b.pass] ++ two b.next)).flatten)) ∧
  (∀ e ∈ resultRows, ∀ code tag adjusted data, ∃ bytes,
    WrittenAs (.mgmtAnswer code tag { result := e.1, adjusted := adjusted, data := data }) 0x41
      (one code ++ two tag ++ one e.2.1 ++ one e.2.2 ++ bytes) ∧
    (data = .empty → e.1 ≠ .clamped → bytes = []) ∧
    ∀ c free, data = .counters c free →
      [c.transitDropField, c.transitDropPark, c.originDropField, c.originDropPark, c.foreign, c.unknownStation,
       c.roleMismatch, c.malformed, c.wrongPortMgmt, c.counterRestarts, c.dispatchMerged, c.offers, c.grants,
       c.refusals, c.admits, c.expiries, c.reportLost].flatMap two <+: bytes) ∧
  (∀ e ∈ reportRows, ∀ subject detail t,
    WrittenAs (.report { kind := e.1, subject := subject, detail := detail, parkSecond := t }) 0x42
      (one e.2.1 ++ one e.2.2 ++ two subject ++ two detail ++ parkSecond t)) ∧
  ∀ e ∈ eventRows, ∀ pass ride count start t token, WrittenAs (.passLog e.1 pass ride count start t token) 0x43
    (one e.2 ++ two pass ++ one ride ++ one count ++ two start ++ parkSecond t ++ token)

/-- R4, R175, R195, Tables 1-1 to 1-5 and 11-1: what the classifier reads of a frame, the envelope of an originated frame and
the body of each of the nine kinds. -/
def Obligations.FramesAreReadAndWritten : Prop :=
  Sys2Proof.Claims.TheClassifierReadsKindAndCode ∧ Sys2Proof.Claims.OriginatedFramesOnTheWire ∧
    Sys2Proof.Claims.OriginatedBodies

/-! ## What always holds -/

/-- Queues and counters keep to their bounds, reports wait only while R192 holds them back, and a port that is DOWN
holds nothing: every step keeps this. -/
def Obligations.QueuesAndCountersStayBounded : Prop :=
  ∀ s t : State, s.queuesBounded ∧ s.reportsHeldBack ∧ s.downPortsEmpty ∧ s.countersBounded → step s = .next t →
    t.queuesBounded ∧ t.reportsHeldBack ∧ t.downPortsEmpty ∧ t.countersBounded

/-- R15 to R17, R49, R82, R156: STALE, NO_CONTROL and gate silence are what the station table derives: every step
keeps this. -/
def Obligations.SilenceFollowsTheStationTable : Prop :=
  ∀ s t : State, s.tablesCanonical ∧ s.tablesWhole ∧ s.silenceFollows → step s = .next t →
    t.tablesCanonical ∧ t.tablesWhole ∧ t.silenceFollows

/-- R23, R24, R26, R32, R33, R180 to R182: the clock's values and the shape of the park day: every step keeps this. -/
def Obligations.ClockAndDayStaySound : Prop :=
  ∀ s t : State, s.tablesCanonical ∧ s.tablesWhole ∧ s.clock.sound ∧ s.dayShape → step s = .next t →
    t.tablesCanonical ∧ t.tablesWhole ∧ t.clock.sound ∧ t.dayShape

/-- R86, R89: "For every window in a ring, held equals the sum of the party sizes of the holds naming it, and every hold
names a window that is in its ride's ring", and issued plus held stays within capacity, but in a window at capacity 2000
(log 22): every step keeps this. -/
def Obligations.HeldCountsFitTheHolds : Prop :=
  ∀ s t : State, s.holdsSound → step s = .next t → t.holdsSound

/-- Table 3-1, Table 4-2, R50 to R52, R72, R76, R80, R88: configurations and counts stay in their ranges, the estimates
are those of the present inputs, T stays in its band, P stays postable, outage lists stay in order with an open last
interval exactly while DOWN, and the room map shows the rooms: every step keeps this. -/
def Obligations.RidesStaySound : Prop :=
  ∀ s t : State, s.ridesSound → step s = .next t → t.ridesSound

/-- Section 6.2, R104, R107 to R109, R123, R124, R127: pass records stay in their ranges, ISSUED passes have a window;
tokens list their own passes and count their own holds, within the limits; ids and indices are used once; every hold has
an entry waiting for it: every step keeps this. -/
def Obligations.TheBookStaysSound : Prop :=
  ∀ s t : State, s.bookSound → step s = .next t → t.bookSound

/-- What always holds, holds in State.reset, whose straps and link states are the model's (log 5, log 6). -/
def Obligations.TheResetStateIsSound : Prop :=
  State.reset.queuesBounded ∧ State.reset.reportsHeldBack ∧ State.reset.downPortsEmpty ∧
    State.reset.countersBounded ∧ State.reset.silenceFollows ∧ State.reset.clock.sound ∧ State.reset.holdsSound ∧
    State.reset.ridesSound ∧ State.reset.bookSound
end

