-- ==== Sys2Proof/Laws/State.lean ====
section
/-! SUPPORT. One lemma per field per update: what each primitive operation leaves as it was, and what it writes. -/

namespace Sys2Proof.Machine

/-! ### `bump` -/

@[simp] theorem bump_pending (name : Counter) (s : State) : (bump name s).pending = s.pending := rfl
@[simp] theorem bump_resetHeld (name : Counter) (s : State) : (bump name s).resetHeld = s.resetHeld := rfl
@[simp] theorem bump_straps (name : Counter) (s : State) : (bump name s).straps = s.straps := rfl
@[simp] theorem bump_device (name : Counter) (s : State) : (bump name s).device = s.device := rfl
@[simp] theorem bump_purgeCursor (name : Counter) (s : State) : (bump name s).purgeCursor = s.purgeCursor := rfl
@[simp] theorem bump_settings (name : Counter) (s : State) : (bump name s).settings = s.settings := rfl
@[simp] theorem bump_reportMask (name : Counter) (s : State) : (bump name s).reportMask = s.reportMask := rfl
@[simp] theorem bump_reportQueue (name : Counter) (s : State) : (bump name s).reportQueue = s.reportQueue := rfl
@[simp] theorem bump_field (name : Counter) (s : State) : (bump name s).field = s.field := rfl
@[simp] theorem bump_park (name : Counter) (s : State) : (bump name s).park = s.park := rfl
@[simp] theorem bump_clock (name : Counter) (s : State) : (bump name s).clock = s.clock := rfl
@[simp] theorem bump_stations (name : Counter) (s : State) : (bump name s).stations = s.stations := rfl
@[simp] theorem bump_classes (name : Counter) (s : State) : (bump name s).classes = s.classes := rfl
@[simp] theorem bump_rides (name : Counter) (s : State) : (bump name s).rides = s.rides := rfl
@[simp] theorem bump_passes (name : Counter) (s : State) : (bump name s).passes = s.passes := rfl
@[simp] theorem bump_tokens (name : Counter) (s : State) : (bump name s).tokens = s.tokens := rfl
@[simp] theorem bump_holds (name : Counter) (s : State) : (bump name s).holds = s.holds := rfl
@[simp] theorem bump_nextId (name : Counter) (s : State) : (bump name s).nextId = s.nextId := rfl
@[simp] theorem bump_expiredIds (name : Counter) (s : State) : (bump name s).expiredIds = s.expiredIds := rfl
@[simp] theorem bump_boards (name : Counter) (s : State) : (bump name s).boards = s.boards := rfl
@[simp] theorem bump_symbols (name : Counter) (s : State) : (bump name s).symbols = s.symbols := rfl

/-! ### `setRide` -/

@[simp] theorem setRide_pending (i : Nat) (r : Ride) (s : State) : (setRide i r s).pending = s.pending := rfl
@[simp] theorem setRide_resetHeld (i : Nat) (r : Ride) (s : State) : (setRide i r s).resetHeld = s.resetHeld := rfl
@[simp] theorem setRide_straps (i : Nat) (r : Ride) (s : State) : (setRide i r s).straps = s.straps := rfl
@[simp] theorem setRide_device (i : Nat) (r : Ride) (s : State) : (setRide i r s).device = s.device := rfl
@[simp] theorem setRide_purgeCursor (i : Nat) (r : Ride) (s : State) : (setRide i r s).purgeCursor = s.purgeCursor := rfl
@[simp] theorem setRide_settings (i : Nat) (r : Ride) (s : State) : (setRide i r s).settings = s.settings := rfl
@[simp] theorem setRide_reportMask (i : Nat) (r : Ride) (s : State) : (setRide i r s).reportMask = s.reportMask := rfl
@[simp] theorem setRide_reportQueue (i : Nat) (r : Ride) (s : State) : (setRide i r s).reportQueue = s.reportQueue := rfl
@[simp] theorem setRide_counters (i : Nat) (r : Ride) (s : State) : (setRide i r s).counters = s.counters := rfl
@[simp] theorem setRide_field (i : Nat) (r : Ride) (s : State) : (setRide i r s).field = s.field := rfl
@[simp] theorem setRide_park (i : Nat) (r : Ride) (s : State) : (setRide i r s).park = s.park := rfl
@[simp] theorem setRide_clock (i : Nat) (r : Ride) (s : State) : (setRide i r s).clock = s.clock := rfl
@[simp] theorem setRide_stations (i : Nat) (r : Ride) (s : State) : (setRide i r s).stations = s.stations := rfl
@[simp] theorem setRide_classes (i : Nat) (r : Ride) (s : State) : (setRide i r s).classes = s.classes := rfl
@[simp] theorem setRide_passes (i : Nat) (r : Ride) (s : State) : (setRide i r s).passes = s.passes := rfl
@[simp] theorem setRide_tokens (i : Nat) (r : Ride) (s : State) : (setRide i r s).tokens = s.tokens := rfl
@[simp] theorem setRide_holds (i : Nat) (r : Ride) (s : State) : (setRide i r s).holds = s.holds := rfl
@[simp] theorem setRide_nextId (i : Nat) (r : Ride) (s : State) : (setRide i r s).nextId = s.nextId := rfl
@[simp] theorem setRide_expiredIds (i : Nat) (r : Ride) (s : State) : (setRide i r s).expiredIds = s.expiredIds := rfl
@[simp] theorem setRide_boards (i : Nat) (r : Ride) (s : State) : (setRide i r s).boards = s.boards := rfl
@[simp] theorem setRide_symbols (i : Nat) (r : Ride) (s : State) : (setRide i r s).symbols = s.symbols := rfl

/-! ### `updRide` -/

@[simp] theorem updRide_pending (i : Nat) (f : Ride → Ride) (s : State) : (updRide i f s).pending = s.pending := rfl
@[simp] theorem updRide_resetHeld (i : Nat) (f : Ride → Ride) (s : State) : (updRide i f s).resetHeld = s.resetHeld := rfl
@[simp] theorem updRide_straps (i : Nat) (f : Ride → Ride) (s : State) : (updRide i f s).straps = s.straps := rfl
@[simp] theorem updRide_device (i : Nat) (f : Ride → Ride) (s : State) : (updRide i f s).device = s.device := rfl
@[simp] theorem updRide_purgeCursor (i : Nat) (f : Ride → Ride) (s : State) : (updRide i f s).purgeCursor = s.purgeCursor := rfl
@[simp] theorem updRide_settings (i : Nat) (f : Ride → Ride) (s : State) : (updRide i f s).settings = s.settings := rfl
@[simp] theorem updRide_reportMask (i : Nat) (f : Ride → Ride) (s : State) : (updRide i f s).reportMask = s.reportMask := rfl
@[simp] theorem updRide_reportQueue (i : Nat) (f : Ride → Ride) (s : State) : (updRide i f s).reportQueue = s.reportQueue := rfl
@[simp] theorem updRide_counters (i : Nat) (f : Ride → Ride) (s : State) : (updRide i f s).counters = s.counters := rfl
@[simp] theorem updRide_field (i : Nat) (f : Ride → Ride) (s : State) : (updRide i f s).field = s.field := rfl
@[simp] theorem updRide_park (i : Nat) (f : Ride → Ride) (s : State) : (updRide i f s).park = s.park := rfl
@[simp] theorem updRide_clock (i : Nat) (f : Ride → Ride) (s : State) : (updRide i f s).clock = s.clock := rfl
@[simp] theorem updRide_stations (i : Nat) (f : Ride → Ride) (s : State) : (updRide i f s).stations = s.stations := rfl
@[simp] theorem updRide_classes (i : Nat) (f : Ride → Ride) (s : State) : (updRide i f s).classes = s.classes := rfl
@[simp] theorem updRide_passes (i : Nat) (f : Ride → Ride) (s : State) : (updRide i f s).passes = s.passes := rfl
@[simp] theorem updRide_tokens (i : Nat) (f : Ride → Ride) (s : State) : (updRide i f s).tokens = s.tokens := rfl
@[simp] theorem updRide_holds (i : Nat) (f : Ride → Ride) (s : State) : (updRide i f s).holds = s.holds := rfl
@[simp] theorem updRide_nextId (i : Nat) (f : Ride → Ride) (s : State) : (updRide i f s).nextId = s.nextId := rfl
@[simp] theorem updRide_expiredIds (i : Nat) (f : Ride → Ride) (s : State) : (updRide i f s).expiredIds = s.expiredIds := rfl
@[simp] theorem updRide_boards (i : Nat) (f : Ride → Ride) (s : State) : (updRide i f s).boards = s.boards := rfl
@[simp] theorem updRide_symbols (i : Nat) (f : Ride → Ride) (s : State) : (updRide i f s).symbols = s.symbols := rfl

/-! ### `updTotals` -/

@[simp] theorem updTotals_pending (i : Nat) (f : DayTotals → DayTotals) (s : State) : (updTotals i f s).pending = s.pending := rfl
@[simp] theorem updTotals_resetHeld (i : Nat) (f : DayTotals → DayTotals) (s : State) : (updTotals i f s).resetHeld = s.resetHeld := rfl
@[simp] theorem updTotals_straps (i : Nat) (f : DayTotals → DayTotals) (s : State) : (updTotals i f s).straps = s.straps := rfl
@[simp] theorem updTotals_device (i : Nat) (f : DayTotals → DayTotals) (s : State) : (updTotals i f s).device = s.device := rfl
@[simp] theorem updTotals_purgeCursor (i : Nat) (f : DayTotals → DayTotals) (s : State) : (updTotals i f s).purgeCursor = s.purgeCursor := rfl
@[simp] theorem updTotals_settings (i : Nat) (f : DayTotals → DayTotals) (s : State) : (updTotals i f s).settings = s.settings := rfl
@[simp] theorem updTotals_reportMask (i : Nat) (f : DayTotals → DayTotals) (s : State) : (updTotals i f s).reportMask = s.reportMask := rfl
@[simp] theorem updTotals_reportQueue (i : Nat) (f : DayTotals → DayTotals) (s : State) : (updTotals i f s).reportQueue = s.reportQueue := rfl
@[simp] theorem updTotals_counters (i : Nat) (f : DayTotals → DayTotals) (s : State) : (updTotals i f s).counters = s.counters := rfl
@[simp] theorem updTotals_field (i : Nat) (f : DayTotals → DayTotals) (s : State) : (updTotals i f s).field = s.field := rfl
@[simp] theorem updTotals_park (i : Nat) (f : DayTotals → DayTotals) (s : State) : (updTotals i f s).park = s.park := rfl
@[simp] theorem updTotals_clock (i : Nat) (f : DayTotals → DayTotals) (s : State) : (updTotals i f s).clock = s.clock := rfl
@[simp] theorem updTotals_stations (i : Nat) (f : DayTotals → DayTotals) (s : State) : (updTotals i f s).stations = s.stations := rfl
@[simp] theorem updTotals_classes (i : Nat) (f : DayTotals → DayTotals) (s : State) : (updTotals i f s).classes = s.classes := rfl
@[simp] theorem updTotals_passes (i : Nat) (f : DayTotals → DayTotals) (s : State) : (updTotals i f s).passes = s.passes := rfl
@[simp] theorem updTotals_tokens (i : Nat) (f : DayTotals → DayTotals) (s : State) : (updTotals i f s).tokens = s.tokens := rfl
@[simp] theorem updTotals_holds (i : Nat) (f : DayTotals → DayTotals) (s : State) : (updTotals i f s).holds = s.holds := rfl
@[simp] theorem updTotals_nextId (i : Nat) (f : DayTotals → DayTotals) (s : State) : (updTotals i f s).nextId = s.nextId := rfl
@[simp] theorem updTotals_expiredIds (i : Nat) (f : DayTotals → DayTotals) (s : State) : (updTotals i f s).expiredIds = s.expiredIds := rfl
@[simp] theorem updTotals_boards (i : Nat) (f : DayTotals → DayTotals) (s : State) : (updTotals i f s).boards = s.boards := rfl
@[simp] theorem updTotals_symbols (i : Nat) (f : DayTotals → DayTotals) (s : State) : (updTotals i f s).symbols = s.symbols := rfl

/-! ### `updLane` -/

@[simp] theorem updLane_pending (i : Nat) (f : Lane → Lane) (s : State) : (updLane i f s).pending = s.pending := rfl
@[simp] theorem updLane_resetHeld (i : Nat) (f : Lane → Lane) (s : State) : (updLane i f s).resetHeld = s.resetHeld := rfl
@[simp] theorem updLane_straps (i : Nat) (f : Lane → Lane) (s : State) : (updLane i f s).straps = s.straps := rfl
@[simp] theorem updLane_device (i : Nat) (f : Lane → Lane) (s : State) : (updLane i f s).device = s.device := rfl
@[simp] theorem updLane_purgeCursor (i : Nat) (f : Lane → Lane) (s : State) : (updLane i f s).purgeCursor = s.purgeCursor := rfl
@[simp] theorem updLane_settings (i : Nat) (f : Lane → Lane) (s : State) : (updLane i f s).settings = s.settings := rfl
@[simp] theorem updLane_reportMask (i : Nat) (f : Lane → Lane) (s : State) : (updLane i f s).reportMask = s.reportMask := rfl
@[simp] theorem updLane_reportQueue (i : Nat) (f : Lane → Lane) (s : State) : (updLane i f s).reportQueue = s.reportQueue := rfl
@[simp] theorem updLane_counters (i : Nat) (f : Lane → Lane) (s : State) : (updLane i f s).counters = s.counters := rfl
@[simp] theorem updLane_field (i : Nat) (f : Lane → Lane) (s : State) : (updLane i f s).field = s.field := rfl
@[simp] theorem updLane_park (i : Nat) (f : Lane → Lane) (s : State) : (updLane i f s).park = s.park := rfl
@[simp] theorem updLane_clock (i : Nat) (f : Lane → Lane) (s : State) : (updLane i f s).clock = s.clock := rfl
@[simp] theorem updLane_stations (i : Nat) (f : Lane → Lane) (s : State) : (updLane i f s).stations = s.stations := rfl
@[simp] theorem updLane_classes (i : Nat) (f : Lane → Lane) (s : State) : (updLane i f s).classes = s.classes := rfl
@[simp] theorem updLane_passes (i : Nat) (f : Lane → Lane) (s : State) : (updLane i f s).passes = s.passes := rfl
@[simp] theorem updLane_tokens (i : Nat) (f : Lane → Lane) (s : State) : (updLane i f s).tokens = s.tokens := rfl
@[simp] theorem updLane_holds (i : Nat) (f : Lane → Lane) (s : State) : (updLane i f s).holds = s.holds := rfl
@[simp] theorem updLane_nextId (i : Nat) (f : Lane → Lane) (s : State) : (updLane i f s).nextId = s.nextId := rfl
@[simp] theorem updLane_expiredIds (i : Nat) (f : Lane → Lane) (s : State) : (updLane i f s).expiredIds = s.expiredIds := rfl
@[simp] theorem updLane_boards (i : Nat) (f : Lane → Lane) (s : State) : (updLane i f s).boards = s.boards := rfl
@[simp] theorem updLane_symbols (i : Nat) (f : Lane → Lane) (s : State) : (updLane i f s).symbols = s.symbols := rfl

/-! ### `setRing` -/

@[simp] theorem setRing_pending (i : Nat) (ring : List Window) (s : State) : (setRing i ring s).pending = s.pending := rfl
@[simp] theorem setRing_resetHeld (i : Nat) (ring : List Window) (s : State) : (setRing i ring s).resetHeld = s.resetHeld := rfl
@[simp] theorem setRing_straps (i : Nat) (ring : List Window) (s : State) : (setRing i ring s).straps = s.straps := rfl
@[simp] theorem setRing_device (i : Nat) (ring : List Window) (s : State) : (setRing i ring s).device = s.device := rfl
@[simp] theorem setRing_purgeCursor (i : Nat) (ring : List Window) (s : State) : (setRing i ring s).purgeCursor = s.purgeCursor := rfl
@[simp] theorem setRing_settings (i : Nat) (ring : List Window) (s : State) : (setRing i ring s).settings = s.settings := rfl
@[simp] theorem setRing_reportMask (i : Nat) (ring : List Window) (s : State) : (setRing i ring s).reportMask = s.reportMask := rfl
@[simp] theorem setRing_reportQueue (i : Nat) (ring : List Window) (s : State) : (setRing i ring s).reportQueue = s.reportQueue := rfl
@[simp] theorem setRing_counters (i : Nat) (ring : List Window) (s : State) : (setRing i ring s).counters = s.counters := rfl
@[simp] theorem setRing_field (i : Nat) (ring : List Window) (s : State) : (setRing i ring s).field = s.field := rfl
@[simp] theorem setRing_park (i : Nat) (ring : List Window) (s : State) : (setRing i ring s).park = s.park := rfl
@[simp] theorem setRing_clock (i : Nat) (ring : List Window) (s : State) : (setRing i ring s).clock = s.clock := rfl
@[simp] theorem setRing_stations (i : Nat) (ring : List Window) (s : State) : (setRing i ring s).stations = s.stations := rfl
@[simp] theorem setRing_classes (i : Nat) (ring : List Window) (s : State) : (setRing i ring s).classes = s.classes := rfl
@[simp] theorem setRing_passes (i : Nat) (ring : List Window) (s : State) : (setRing i ring s).passes = s.passes := rfl
@[simp] theorem setRing_tokens (i : Nat) (ring : List Window) (s : State) : (setRing i ring s).tokens = s.tokens := rfl
@[simp] theorem setRing_holds (i : Nat) (ring : List Window) (s : State) : (setRing i ring s).holds = s.holds := rfl
@[simp] theorem setRing_nextId (i : Nat) (ring : List Window) (s : State) : (setRing i ring s).nextId = s.nextId := rfl
@[simp] theorem setRing_expiredIds (i : Nat) (ring : List Window) (s : State) : (setRing i ring s).expiredIds = s.expiredIds := rfl
@[simp] theorem setRing_boards (i : Nat) (ring : List Window) (s : State) : (setRing i ring s).boards = s.boards := rfl
@[simp] theorem setRing_symbols (i : Nat) (ring : List Window) (s : State) : (setRing i ring s).symbols = s.symbols := rfl

/-! ### `updWindow` -/

@[simp] theorem updWindow_pending (i start : Nat) (f : Window → Window) (s : State) : (updWindow i start f s).pending = s.pending := rfl
@[simp] theorem updWindow_resetHeld (i start : Nat) (f : Window → Window) (s : State) : (updWindow i start f s).resetHeld = s.resetHeld := rfl
@[simp] theorem updWindow_straps (i start : Nat) (f : Window → Window) (s : State) : (updWindow i start f s).straps = s.straps := rfl
@[simp] theorem updWindow_device (i start : Nat) (f : Window → Window) (s : State) : (updWindow i start f s).device = s.device := rfl
@[simp] theorem updWindow_purgeCursor (i start : Nat) (f : Window → Window) (s : State) : (updWindow i start f s).purgeCursor = s.purgeCursor := rfl
@[simp] theorem updWindow_settings (i start : Nat) (f : Window → Window) (s : State) : (updWindow i start f s).settings = s.settings := rfl
@[simp] theorem updWindow_reportMask (i start : Nat) (f : Window → Window) (s : State) : (updWindow i start f s).reportMask = s.reportMask := rfl
@[simp] theorem updWindow_reportQueue (i start : Nat) (f : Window → Window) (s : State) : (updWindow i start f s).reportQueue = s.reportQueue := rfl
@[simp] theorem updWindow_counters (i start : Nat) (f : Window → Window) (s : State) : (updWindow i start f s).counters = s.counters := rfl
@[simp] theorem updWindow_field (i start : Nat) (f : Window → Window) (s : State) : (updWindow i start f s).field = s.field := rfl
@[simp] theorem updWindow_park (i start : Nat) (f : Window → Window) (s : State) : (updWindow i start f s).park = s.park := rfl
@[simp] theorem updWindow_clock (i start : Nat) (f : Window → Window) (s : State) : (updWindow i start f s).clock = s.clock := rfl
@[simp] theorem updWindow_stations (i start : Nat) (f : Window → Window) (s : State) : (updWindow i start f s).stations = s.stations := rfl
@[simp] theorem updWindow_classes (i start : Nat) (f : Window → Window) (s : State) : (updWindow i start f s).classes = s.classes := rfl
@[simp] theorem updWindow_passes (i start : Nat) (f : Window → Window) (s : State) : (updWindow i start f s).passes = s.passes := rfl
@[simp] theorem updWindow_tokens (i start : Nat) (f : Window → Window) (s : State) : (updWindow i start f s).tokens = s.tokens := rfl
@[simp] theorem updWindow_holds (i start : Nat) (f : Window → Window) (s : State) : (updWindow i start f s).holds = s.holds := rfl
@[simp] theorem updWindow_nextId (i start : Nat) (f : Window → Window) (s : State) : (updWindow i start f s).nextId = s.nextId := rfl
@[simp] theorem updWindow_expiredIds (i start : Nat) (f : Window → Window) (s : State) : (updWindow i start f s).expiredIds = s.expiredIds := rfl
@[simp] theorem updWindow_boards (i start : Nat) (f : Window → Window) (s : State) : (updWindow i start f s).boards = s.boards := rfl
@[simp] theorem updWindow_symbols (i start : Nat) (f : Window → Window) (s : State) : (updWindow i start f s).symbols = s.symbols := rfl

/-! ### `setRecent` -/

@[simp] theorem setRecent_pending (i : Nat) (recent : List Nat) (s : State) : (setRecent i recent s).pending = s.pending := rfl
@[simp] theorem setRecent_resetHeld (i : Nat) (recent : List Nat) (s : State) : (setRecent i recent s).resetHeld = s.resetHeld := rfl
@[simp] theorem setRecent_straps (i : Nat) (recent : List Nat) (s : State) : (setRecent i recent s).straps = s.straps := rfl
@[simp] theorem setRecent_device (i : Nat) (recent : List Nat) (s : State) : (setRecent i recent s).device = s.device := rfl
@[simp] theorem setRecent_purgeCursor (i : Nat) (recent : List Nat) (s : State) : (setRecent i recent s).purgeCursor = s.purgeCursor := rfl
@[simp] theorem setRecent_settings (i : Nat) (recent : List Nat) (s : State) : (setRecent i recent s).settings = s.settings := rfl
@[simp] theorem setRecent_reportMask (i : Nat) (recent : List Nat) (s : State) : (setRecent i recent s).reportMask = s.reportMask := rfl
@[simp] theorem setRecent_reportQueue (i : Nat) (recent : List Nat) (s : State) : (setRecent i recent s).reportQueue = s.reportQueue := rfl
@[simp] theorem setRecent_counters (i : Nat) (recent : List Nat) (s : State) : (setRecent i recent s).counters = s.counters := rfl
@[simp] theorem setRecent_field (i : Nat) (recent : List Nat) (s : State) : (setRecent i recent s).field = s.field := rfl
@[simp] theorem setRecent_park (i : Nat) (recent : List Nat) (s : State) : (setRecent i recent s).park = s.park := rfl
@[simp] theorem setRecent_clock (i : Nat) (recent : List Nat) (s : State) : (setRecent i recent s).clock = s.clock := rfl
@[simp] theorem setRecent_stations (i : Nat) (recent : List Nat) (s : State) : (setRecent i recent s).stations = s.stations := rfl
@[simp] theorem setRecent_classes (i : Nat) (recent : List Nat) (s : State) : (setRecent i recent s).classes = s.classes := rfl
@[simp] theorem setRecent_passes (i : Nat) (recent : List Nat) (s : State) : (setRecent i recent s).passes = s.passes := rfl
@[simp] theorem setRecent_tokens (i : Nat) (recent : List Nat) (s : State) : (setRecent i recent s).tokens = s.tokens := rfl
@[simp] theorem setRecent_holds (i : Nat) (recent : List Nat) (s : State) : (setRecent i recent s).holds = s.holds := rfl
@[simp] theorem setRecent_nextId (i : Nat) (recent : List Nat) (s : State) : (setRecent i recent s).nextId = s.nextId := rfl
@[simp] theorem setRecent_expiredIds (i : Nat) (recent : List Nat) (s : State) : (setRecent i recent s).expiredIds = s.expiredIds := rfl
@[simp] theorem setRecent_boards (i : Nat) (recent : List Nat) (s : State) : (setRecent i recent s).boards = s.boards := rfl
@[simp] theorem setRecent_symbols (i : Nat) (recent : List Nat) (s : State) : (setRecent i recent s).symbols = s.symbols := rfl

/-! ### `putStation` -/

@[simp] theorem putStation_pending (number : Nat) (st : Station) (s : State) : (putStation number st s).pending = s.pending := rfl
@[simp] theorem putStation_resetHeld (number : Nat) (st : Station) (s : State) : (putStation number st s).resetHeld = s.resetHeld := rfl
@[simp] theorem putStation_straps (number : Nat) (st : Station) (s : State) : (putStation number st s).straps = s.straps := rfl
@[simp] theorem putStation_device (number : Nat) (st : Station) (s : State) : (putStation number st s).device = s.device := rfl
@[simp] theorem putStation_purgeCursor (number : Nat) (st : Station) (s : State) : (putStation number st s).purgeCursor = s.purgeCursor := rfl
@[simp] theorem putStation_settings (number : Nat) (st : Station) (s : State) : (putStation number st s).settings = s.settings := rfl
@[simp] theorem putStation_reportMask (number : Nat) (st : Station) (s : State) : (putStation number st s).reportMask = s.reportMask := rfl
@[simp] theorem putStation_reportQueue (number : Nat) (st : Station) (s : State) : (putStation number st s).reportQueue = s.reportQueue := rfl
@[simp] theorem putStation_counters (number : Nat) (st : Station) (s : State) : (putStation number st s).counters = s.counters := rfl
@[simp] theorem putStation_field (number : Nat) (st : Station) (s : State) : (putStation number st s).field = s.field := rfl
@[simp] theorem putStation_park (number : Nat) (st : Station) (s : State) : (putStation number st s).park = s.park := rfl
@[simp] theorem putStation_clock (number : Nat) (st : Station) (s : State) : (putStation number st s).clock = s.clock := rfl
@[simp] theorem putStation_classes (number : Nat) (st : Station) (s : State) : (putStation number st s).classes = s.classes := rfl
@[simp] theorem putStation_rides (number : Nat) (st : Station) (s : State) : (putStation number st s).rides = s.rides := rfl
@[simp] theorem putStation_passes (number : Nat) (st : Station) (s : State) : (putStation number st s).passes = s.passes := rfl
@[simp] theorem putStation_tokens (number : Nat) (st : Station) (s : State) : (putStation number st s).tokens = s.tokens := rfl
@[simp] theorem putStation_holds (number : Nat) (st : Station) (s : State) : (putStation number st s).holds = s.holds := rfl
@[simp] theorem putStation_nextId (number : Nat) (st : Station) (s : State) : (putStation number st s).nextId = s.nextId := rfl
@[simp] theorem putStation_expiredIds (number : Nat) (st : Station) (s : State) : (putStation number st s).expiredIds = s.expiredIds := rfl
@[simp] theorem putStation_boards (number : Nat) (st : Station) (s : State) : (putStation number st s).boards = s.boards := rfl
@[simp] theorem putStation_symbols (number : Nat) (st : Station) (s : State) : (putStation number st s).symbols = s.symbols := rfl

/-! ### `putPass` -/

@[simp] theorem putPass_pending (k : Nat) (p : Pass) (s : State) : (putPass k p s).pending = s.pending := rfl
@[simp] theorem putPass_resetHeld (k : Nat) (p : Pass) (s : State) : (putPass k p s).resetHeld = s.resetHeld := rfl
@[simp] theorem putPass_straps (k : Nat) (p : Pass) (s : State) : (putPass k p s).straps = s.straps := rfl
@[simp] theorem putPass_device (k : Nat) (p : Pass) (s : State) : (putPass k p s).device = s.device := rfl
@[simp] theorem putPass_purgeCursor (k : Nat) (p : Pass) (s : State) : (putPass k p s).purgeCursor = s.purgeCursor := rfl
@[simp] theorem putPass_settings (k : Nat) (p : Pass) (s : State) : (putPass k p s).settings = s.settings := rfl
@[simp] theorem putPass_reportMask (k : Nat) (p : Pass) (s : State) : (putPass k p s).reportMask = s.reportMask := rfl
@[simp] theorem putPass_reportQueue (k : Nat) (p : Pass) (s : State) : (putPass k p s).reportQueue = s.reportQueue := rfl
@[simp] theorem putPass_counters (k : Nat) (p : Pass) (s : State) : (putPass k p s).counters = s.counters := rfl
@[simp] theorem putPass_field (k : Nat) (p : Pass) (s : State) : (putPass k p s).field = s.field := rfl
@[simp] theorem putPass_park (k : Nat) (p : Pass) (s : State) : (putPass k p s).park = s.park := rfl
@[simp] theorem putPass_clock (k : Nat) (p : Pass) (s : State) : (putPass k p s).clock = s.clock := rfl
@[simp] theorem putPass_stations (k : Nat) (p : Pass) (s : State) : (putPass k p s).stations = s.stations := rfl
@[simp] theorem putPass_classes (k : Nat) (p : Pass) (s : State) : (putPass k p s).classes = s.classes := rfl
@[simp] theorem putPass_rides (k : Nat) (p : Pass) (s : State) : (putPass k p s).rides = s.rides := rfl
@[simp] theorem putPass_tokens (k : Nat) (p : Pass) (s : State) : (putPass k p s).tokens = s.tokens := rfl
@[simp] theorem putPass_holds (k : Nat) (p : Pass) (s : State) : (putPass k p s).holds = s.holds := rfl
@[simp] theorem putPass_nextId (k : Nat) (p : Pass) (s : State) : (putPass k p s).nextId = s.nextId := rfl
@[simp] theorem putPass_expiredIds (k : Nat) (p : Pass) (s : State) : (putPass k p s).expiredIds = s.expiredIds := rfl
@[simp] theorem putPass_boards (k : Nat) (p : Pass) (s : State) : (putPass k p s).boards = s.boards := rfl
@[simp] theorem putPass_symbols (k : Nat) (p : Pass) (s : State) : (putPass k p s).symbols = s.symbols := rfl

/-! ### `putBoard` -/

@[simp] theorem putBoard_pending (index : Nat) (b : BoardRec) (s : State) : (putBoard index b s).pending = s.pending := rfl
@[simp] theorem putBoard_resetHeld (index : Nat) (b : BoardRec) (s : State) : (putBoard index b s).resetHeld = s.resetHeld := rfl
@[simp] theorem putBoard_straps (index : Nat) (b : BoardRec) (s : State) : (putBoard index b s).straps = s.straps := rfl
@[simp] theorem putBoard_device (index : Nat) (b : BoardRec) (s : State) : (putBoard index b s).device = s.device := rfl
@[simp] theorem putBoard_purgeCursor (index : Nat) (b : BoardRec) (s : State) : (putBoard index b s).purgeCursor = s.purgeCursor := rfl
@[simp] theorem putBoard_settings (index : Nat) (b : BoardRec) (s : State) : (putBoard index b s).settings = s.settings := rfl
@[simp] theorem putBoard_reportMask (index : Nat) (b : BoardRec) (s : State) : (putBoard index b s).reportMask = s.reportMask := rfl
@[simp] theorem putBoard_reportQueue (index : Nat) (b : BoardRec) (s : State) : (putBoard index b s).reportQueue = s.reportQueue := rfl
@[simp] theorem putBoard_counters (index : Nat) (b : BoardRec) (s : State) : (putBoard index b s).counters = s.counters := rfl
@[simp] theorem putBoard_field (index : Nat) (b : BoardRec) (s : State) : (putBoard index b s).field = s.field := rfl
@[simp] theorem putBoard_park (index : Nat) (b : BoardRec) (s : State) : (putBoard index b s).park = s.park := rfl
@[simp] theorem putBoard_clock (index : Nat) (b : BoardRec) (s : State) : (putBoard index b s).clock = s.clock := rfl
@[simp] theorem putBoard_stations (index : Nat) (b : BoardRec) (s : State) : (putBoard index b s).stations = s.stations := rfl
@[simp] theorem putBoard_classes (index : Nat) (b : BoardRec) (s : State) : (putBoard index b s).classes = s.classes := rfl
@[simp] theorem putBoard_rides (index : Nat) (b : BoardRec) (s : State) : (putBoard index b s).rides = s.rides := rfl
@[simp] theorem putBoard_passes (index : Nat) (b : BoardRec) (s : State) : (putBoard index b s).passes = s.passes := rfl
@[simp] theorem putBoard_tokens (index : Nat) (b : BoardRec) (s : State) : (putBoard index b s).tokens = s.tokens := rfl
@[simp] theorem putBoard_holds (index : Nat) (b : BoardRec) (s : State) : (putBoard index b s).holds = s.holds := rfl
@[simp] theorem putBoard_nextId (index : Nat) (b : BoardRec) (s : State) : (putBoard index b s).nextId = s.nextId := rfl
@[simp] theorem putBoard_expiredIds (index : Nat) (b : BoardRec) (s : State) : (putBoard index b s).expiredIds = s.expiredIds := rfl
@[simp] theorem putBoard_symbols (index : Nat) (b : BoardRec) (s : State) : (putBoard index b s).symbols = s.symbols := rfl

/-! ### `makeHold` -/

@[simp] theorem makeHold_pending (h : Hold) (s : State) : (makeHold h s).pending = s.pending := rfl
@[simp] theorem makeHold_resetHeld (h : Hold) (s : State) : (makeHold h s).resetHeld = s.resetHeld := rfl
@[simp] theorem makeHold_straps (h : Hold) (s : State) : (makeHold h s).straps = s.straps := rfl
@[simp] theorem makeHold_device (h : Hold) (s : State) : (makeHold h s).device = s.device := rfl
@[simp] theorem makeHold_purgeCursor (h : Hold) (s : State) : (makeHold h s).purgeCursor = s.purgeCursor := rfl
@[simp] theorem makeHold_settings (h : Hold) (s : State) : (makeHold h s).settings = s.settings := rfl
@[simp] theorem makeHold_reportMask (h : Hold) (s : State) : (makeHold h s).reportMask = s.reportMask := rfl
@[simp] theorem makeHold_reportQueue (h : Hold) (s : State) : (makeHold h s).reportQueue = s.reportQueue := rfl
@[simp] theorem makeHold_counters (h : Hold) (s : State) : (makeHold h s).counters = s.counters := rfl
@[simp] theorem makeHold_field (h : Hold) (s : State) : (makeHold h s).field = s.field := rfl
@[simp] theorem makeHold_park (h : Hold) (s : State) : (makeHold h s).park = s.park := rfl
@[simp] theorem makeHold_clock (h : Hold) (s : State) : (makeHold h s).clock = s.clock := rfl
@[simp] theorem makeHold_stations (h : Hold) (s : State) : (makeHold h s).stations = s.stations := rfl
@[simp] theorem makeHold_classes (h : Hold) (s : State) : (makeHold h s).classes = s.classes := rfl
@[simp] theorem makeHold_rides (h : Hold) (s : State) : (makeHold h s).rides = s.rides := rfl
@[simp] theorem makeHold_passes (h : Hold) (s : State) : (makeHold h s).passes = s.passes := rfl
@[simp] theorem makeHold_tokens (h : Hold) (s : State) : (makeHold h s).tokens = s.tokens := rfl
@[simp] theorem makeHold_expiredIds (h : Hold) (s : State) : (makeHold h s).expiredIds = s.expiredIds := rfl
@[simp] theorem makeHold_boards (h : Hold) (s : State) : (makeHold h s).boards = s.boards := rfl
@[simp] theorem makeHold_symbols (h : Hold) (s : State) : (makeHold h s).symbols = s.symbols := rfl

/-! ### `clearSlot` -/

@[simp] theorem clearSlot_pending (slot : Nat) (s : State) : (clearSlot slot s).pending = s.pending := rfl
@[simp] theorem clearSlot_resetHeld (slot : Nat) (s : State) : (clearSlot slot s).resetHeld = s.resetHeld := rfl
@[simp] theorem clearSlot_straps (slot : Nat) (s : State) : (clearSlot slot s).straps = s.straps := rfl
@[simp] theorem clearSlot_device (slot : Nat) (s : State) : (clearSlot slot s).device = s.device := rfl
@[simp] theorem clearSlot_purgeCursor (slot : Nat) (s : State) : (clearSlot slot s).purgeCursor = s.purgeCursor := rfl
@[simp] theorem clearSlot_settings (slot : Nat) (s : State) : (clearSlot slot s).settings = s.settings := rfl
@[simp] theorem clearSlot_reportMask (slot : Nat) (s : State) : (clearSlot slot s).reportMask = s.reportMask := rfl
@[simp] theorem clearSlot_reportQueue (slot : Nat) (s : State) : (clearSlot slot s).reportQueue = s.reportQueue := rfl
@[simp] theorem clearSlot_counters (slot : Nat) (s : State) : (clearSlot slot s).counters = s.counters := rfl
@[simp] theorem clearSlot_field (slot : Nat) (s : State) : (clearSlot slot s).field = s.field := rfl
@[simp] theorem clearSlot_park (slot : Nat) (s : State) : (clearSlot slot s).park = s.park := rfl
@[simp] theorem clearSlot_clock (slot : Nat) (s : State) : (clearSlot slot s).clock = s.clock := rfl
@[simp] theorem clearSlot_stations (slot : Nat) (s : State) : (clearSlot slot s).stations = s.stations := rfl
@[simp] theorem clearSlot_classes (slot : Nat) (s : State) : (clearSlot slot s).classes = s.classes := rfl
@[simp] theorem clearSlot_rides (slot : Nat) (s : State) : (clearSlot slot s).rides = s.rides := rfl
@[simp] theorem clearSlot_passes (slot : Nat) (s : State) : (clearSlot slot s).passes = s.passes := rfl
@[simp] theorem clearSlot_tokens (slot : Nat) (s : State) : (clearSlot slot s).tokens = s.tokens := rfl
@[simp] theorem clearSlot_nextId (slot : Nat) (s : State) : (clearSlot slot s).nextId = s.nextId := rfl
@[simp] theorem clearSlot_expiredIds (slot : Nat) (s : State) : (clearSlot slot s).expiredIds = s.expiredIds := rfl
@[simp] theorem clearSlot_boards (slot : Nat) (s : State) : (clearSlot slot s).boards = s.boards := rfl
@[simp] theorem clearSlot_symbols (slot : Nat) (s : State) : (clearSlot slot s).symbols = s.symbols := rfl

/-! ### `pendJump` -/

@[simp] theorem pendJump_pending (v : Nat) (s : State) : (pendJump v s).pending = s.pending := rfl
@[simp] theorem pendJump_resetHeld (v : Nat) (s : State) : (pendJump v s).resetHeld = s.resetHeld := rfl
@[simp] theorem pendJump_straps (v : Nat) (s : State) : (pendJump v s).straps = s.straps := rfl
@[simp] theorem pendJump_device (v : Nat) (s : State) : (pendJump v s).device = s.device := rfl
@[simp] theorem pendJump_purgeCursor (v : Nat) (s : State) : (pendJump v s).purgeCursor = s.purgeCursor := rfl
@[simp] theorem pendJump_settings (v : Nat) (s : State) : (pendJump v s).settings = s.settings := rfl
@[simp] theorem pendJump_reportMask (v : Nat) (s : State) : (pendJump v s).reportMask = s.reportMask := rfl
@[simp] theorem pendJump_reportQueue (v : Nat) (s : State) : (pendJump v s).reportQueue = s.reportQueue := rfl
@[simp] theorem pendJump_counters (v : Nat) (s : State) : (pendJump v s).counters = s.counters := rfl
@[simp] theorem pendJump_field (v : Nat) (s : State) : (pendJump v s).field = s.field := rfl
@[simp] theorem pendJump_park (v : Nat) (s : State) : (pendJump v s).park = s.park := rfl
@[simp] theorem pendJump_stations (v : Nat) (s : State) : (pendJump v s).stations = s.stations := rfl
@[simp] theorem pendJump_classes (v : Nat) (s : State) : (pendJump v s).classes = s.classes := rfl
@[simp] theorem pendJump_rides (v : Nat) (s : State) : (pendJump v s).rides = s.rides := rfl
@[simp] theorem pendJump_passes (v : Nat) (s : State) : (pendJump v s).passes = s.passes := rfl
@[simp] theorem pendJump_tokens (v : Nat) (s : State) : (pendJump v s).tokens = s.tokens := rfl
@[simp] theorem pendJump_holds (v : Nat) (s : State) : (pendJump v s).holds = s.holds := rfl
@[simp] theorem pendJump_nextId (v : Nat) (s : State) : (pendJump v s).nextId = s.nextId := rfl
@[simp] theorem pendJump_expiredIds (v : Nat) (s : State) : (pendJump v s).expiredIds = s.expiredIds := rfl
@[simp] theorem pendJump_boards (v : Nat) (s : State) : (pendJump v s).boards = s.boards := rfl
@[simp] theorem pendJump_symbols (v : Nat) (s : State) : (pendJump v s).symbols = s.symbols := rfl

/-! ### What is written -/

@[simp] theorem bump_counters (name : Counter) (s : State) : (bump name s).counters = addCounter name 1 s.counters := rfl
@[simp] theorem setRide_rides (i : Nat) (r : Ride) (s : State) : (setRide i r s).rides = s.rides.set i r := rfl
@[simp] theorem updRide_rides (i : Nat) (f : Ride → Ride) (s : State) :
    (updRide i f s).rides = s.rides.set i (f (rideAt i s)) := rfl
@[simp] theorem putStation_stations (number : Nat) (st : Station) (s : State) :
    (putStation number st s).stations = tblSet s.stations number st := rfl
@[simp] theorem putPass_passes (k : Nat) (p : Pass) (s : State) : (putPass k p s).passes = tblSet s.passes k p := rfl
@[simp] theorem putBoard_boards (index : Nat) (b : BoardRec) (s : State) :
    (putBoard index b s).boards = tblSet s.boards index b := rfl
@[simp] theorem makeHold_holds (h : Hold) (s : State) :
    (makeHold h s).holds = tblSet s.holds (tblFree s.holds 0) h := rfl
@[simp] theorem makeHold_nextId (h : Hold) (s : State) : (makeHold h s).nextId = nextIdAfter h.id := rfl
@[simp] theorem clearSlot_holds (slot : Nat) (s : State) : (clearSlot slot s).holds = tblErase s.holds slot := rfl

end Sys2Proof.Machine
end

