-- ==== Sys2Proof/Laws/Tables.lean ====
section
/-! SUPPORT. The tables by key: reading after writing and erasing, and the canonical form that every table operation
keeps; the ride records by index. -/

namespace Sys2Proof.Machine

variable {α : Type}

/-! ## Reading -/

theorem tblGet_tblSet_same (t : List (Nat × α)) (k : Nat) (v : α) : tblGet (tblSet t k v) k = some v := by
  induction t with
  | nil => simp [tblSet, tblGet]
  | cons e rest ih =>
    obtain ⟨j, w⟩ := e
    simp only [tblSet]
    split
    · simp [tblGet]
    · split
      · simp [tblGet]
      · rename_i hne
        simp [tblGet, Ne.symm hne, ih]

theorem tblGet_tblSet_other (t : List (Nat × α)) (k j : Nat) (v : α) (h : j ≠ k) :
    tblGet (tblSet t k v) j = tblGet t j := by
  induction t with
  | nil => simp [tblSet, tblGet, Ne.symm h]
  | cons e rest ih =>
    obtain ⟨m, w⟩ := e
    simp only [tblSet]
    split
    · simp [tblGet, Ne.symm h]
    · split
      · rename_i hkm; subst hkm; simp [tblGet, Ne.symm h]
      · simp [tblGet, ih]

/-- Reading any key after writing one. -/
theorem tblGet_tblSet (t : List (Nat × α)) (k j : Nat) (v : α) :
    tblGet (tblSet t k v) j = if j = k then some v else tblGet t j := by
  split
  · subst_vars; exact tblGet_tblSet_same ..
  · exact tblGet_tblSet_other _ _ _ _ ‹_›

/-- Writing a key twice is writing it the second time. -/
theorem tblSet_tblSet (t : List (Nat × α)) (k : Nat) (a b : α) : tblSet (tblSet t k a) k b = tblSet t k b := by
  induction t with
  | nil => simp [tblSet]
  | cons e rest ih =>
    obtain ⟨m, w⟩ := e
    simp only [tblSet]
    split
    · simp [tblSet]
    · split
      · simp [tblSet]
      · simp [tblSet, *]

/-- Two tables that differ in one record agree under a test that does not tell the two records apart. -/
theorem any_tblSet_congr (t : List (Nat × α)) (k : Nat) (a b : α) (p : Nat × α → Bool) (h : p (k, a) = p (k, b)) :
    (tblSet t k a).any p = (tblSet t k b).any p := by
  rw [← tblSet_tblSet t k a b]
  induction t with
  | nil => simp [tblSet, h]
  | cons e rest ih =>
    obtain ⟨m, w⟩ := e
    simp only [tblSet]
    split
    · simp [tblSet, h]
    · split
      · simp [tblSet, h]
      · simp [tblSet, *]

/-- Reading any key after erasing one. -/
theorem tblGet_tblErase (t : List (Nat × α)) (k j : Nat) :
    tblGet (tblErase t k) j = if j = k then none else tblGet t j := by
  induction t with
  | nil => simp [tblErase, tblGet]
  | cons e rest ih =>
    obtain ⟨m, w⟩ := e
    by_cases hmk : m = k
    · subst hmk
      have : tblErase ((m, w) :: rest) m = tblErase rest m := by simp [tblErase]
      rw [this, ih]
      split
      · rfl
      · simp [tblGet, Ne.symm ‹¬j = m›]
    · have : tblErase ((m, w) :: rest) k = (m, w) :: tblErase rest k := by simp [tblErase, hmk]
      rw [this]
      simp only [tblGet, ih]
      split
      · subst_vars; simp [hmk]
      · rfl

theorem mem_of_tblGet (t : List (Nat × α)) (k : Nat) (v : α) (h : tblGet t k = some v) : (k, v) ∈ t := by
  induction t with
  | nil => simp [tblGet] at h
  | cons e rest ih =>
    obtain ⟨m, w⟩ := e
    simp only [tblGet] at h
    split at h
    · subst_vars; simp_all
    · exact List.mem_cons_of_mem _ (ih h)

/-- In a canonical table an entry is what its key reads as. -/
theorem tblGet_of_mem (t : List (Nat × α)) (hw : tblWf t) (k : Nat) (v : α) (h : (k, v) ∈ t) : tblGet t k = some v := by
  induction t with
  | nil => simp at h
  | cons e rest ih =>
    obtain ⟨m, w⟩ := e
    rw [tblWf, List.pairwise_cons] at hw
    rcases List.mem_cons.1 h with h | h
    · simp [tblGet, (Prod.mk.inj h).1, (Prod.mk.inj h).2]
    · have := hw.1 _ h
      simp only at this
      simp [tblGet, Nat.ne_of_lt this, ih hw.2 h]

/-! ## Entries -/

/-- An entry after a write is the new one or one that was there. -/
theorem mem_tblSet (t : List (Nat × α)) (k : Nat) (v : α) (e : Nat × α) (h : e ∈ tblSet t k v) :
    e = (k, v) ∨ e ∈ t := by
  induction t with
  | nil => simpa [tblSet] using h
  | cons d rest ih =>
    obtain ⟨m, w⟩ := d
    simp only [tblSet] at h
    split at h
    · simpa using h
    · split at h
      · rcases List.mem_cons.1 h with h | h
        · exact .inl h
        · exact .inr (List.mem_cons_of_mem _ h)
      · rcases List.mem_cons.1 h with h | h
        · exact .inr (by simp [h])
        · exact (ih h).imp id (List.mem_cons_of_mem _)

theorem mem_tblErase (t : List (Nat × α)) (k : Nat) (e : Nat × α) : e ∈ tblErase t k ↔ e ∈ t ∧ e.1 ≠ k := by
  simp [tblErase]

/-! ## The canonical form -/

theorem tblErase_wf (t : List (Nat × α)) (hw : tblWf t) (k : Nat) : tblWf (tblErase t k) := hw.filter _

theorem tblSet_wf (t : List (Nat × α)) (hw : tblWf t) (k : Nat) (v : α) : tblWf (tblSet t k v) := by
  induction t with
  | nil => simp [tblSet]
  | cons d rest ih =>
    obtain ⟨m, w⟩ := d
    rw [tblWf, List.pairwise_cons] at hw
    simp only [tblSet]
    split
    · rename_i hkm
      refine List.pairwise_cons.2 ⟨?_, List.pairwise_cons.2 hw⟩
      intro e he
      rcases List.mem_cons.1 he with he | he
      · subst he; exact hkm
      · exact Nat.lt_trans hkm (hw.1 e he)
    · split
      · subst_vars
        exact List.pairwise_cons.2 ⟨hw.1, hw.2⟩
      · refine List.pairwise_cons.2 ⟨?_, ih hw.2⟩
        intro e he
        rcases mem_tblSet rest k v e he with he | he
        · subst he; simp only; omega
        · exact hw.1 e he

/-- The free key of a canonical table is at or above where the search starts, and is no key of the table. -/
theorem tblFree_spec (t : List (Nat × α)) (n : Nat) (hw : tblWf t) (hn : ∀ e ∈ t, n ≤ e.1) :
    n ≤ tblFree t n ∧ ∀ e ∈ t, e.1 ≠ tblFree t n := by
  induction t generalizing n with
  | nil => simp [tblFree]
  | cons d rest ih =>
    obtain ⟨m, w⟩ := d
    rw [tblWf, List.pairwise_cons] at hw
    have hm := hn (m, w) (by simp)
    simp only at hm
    simp only [tblFree]
    split
    · subst_vars
      have := ih (m + 1) hw.2 (fun e he => hw.1 e he)
      refine ⟨by omega, ?_⟩
      intro e he
      rcases List.mem_cons.1 he with he | he
      · subst he; simp only; omega
      · exact this.2 e he
    · refine ⟨Nat.le_refl _, ?_⟩
      intro e he
      rcases List.mem_cons.1 he with he | he
      · subst he; assumption
      · have := hw.1 e he; simp only at this; omega

/-- The lowest free key is no key of a canonical table. -/
theorem tblGet_tblFree (t : List (Nat × α)) (hw : tblWf t) : tblGet t (tblFree t 0) = none := by
  cases h : tblGet t (tblFree t 0) with
  | none => rfl
  | some v => exact absurd rfl ((tblFree_spec t 0 hw (fun _ _ => Nat.zero_le _)).2 _ (mem_of_tblGet t _ v h))

/-! ## Ride records -/

/-- A ride record written twice is the second one. -/
theorem setRide_setRide (i : Nat) (a b : Ride) (s : State) : setRide i a (setRide i b s) = setRide i a s := by
  simp [setRide]

theorem rideAt_setRide (i j : Nat) (r : Ride) (s : State) :
    rideAt j (setRide i r s) = if j = i ∧ i < s.rides.length then r else rideAt j s := by
  simp only [rideAt, setRide, List.getD_eq_getElem?_getD, List.getElem?_set]
  by_cases hij : j = i
  · subst hij
    by_cases hl : j < s.rides.length <;> simp [hl]
  · simp [hij, Ne.symm hij]

/-- The records after a change of one: the changed one, if the index has a record, and the others as they were. -/
theorem rideAt_updRide (i j : Nat) (f : Ride → Ride) (s : State) :
    rideAt j (updRide i f s) = if j = i ∧ i < s.rides.length then f (rideAt i s) else rideAt j s :=
  rideAt_setRide i j _ s

@[simp] theorem rideAt_updRide_same (i : Nat) (f : Ride → Ride) (s : State) (h : i < s.rides.length) :
    rideAt i (updRide i f s) = f (rideAt i s) := by simp [rideAt_updRide, h]

@[simp] theorem rideAt_updRide_other (i j : Nat) (f : Ride → Ride) (s : State) (h : j ≠ i) :
    rideAt j (updRide i f s) = rideAt j s := by simp [rideAt_updRide, h]

/-- A ride record depends on the rides alone. -/
theorem rideAt_congr (j : Nat) (s t : State) (h : t.rides = s.rides) : rideAt j t = rideAt j s := by
  simp [rideAt, h]

/-- A configured ride has a record. -/
theorem lt_of_configured (i : Nat) (s : State) (h : configured i s = true) : i < s.rides.length := by
  simp only [configured, Bool.and_eq_true, decide_eq_true_eq] at h
  by_cases hl : i < s.rides.length
  · exact hl
  · have : rideAt i s = Ride.reset := by simp [rideAt, List.getD_eq_getElem?_getD, List.getElem?_eq_none (Nat.le_of_not_lt hl)]
    simp [this, Ride.reset] at h

@[simp] theorem updRide_length (i : Nat) (f : Ride → Ride) (s : State) : (updRide i f s).rides.length = s.rides.length := by
  simp

end Sys2Proof.Machine
end

