-- ==== Sys2Proof/Laws/Queues.lean ====
section
/-! SUPPORT. What placing a frame, answering, reporting and entering a device state leave as they were. -/

namespace Sys2Proof.Machine

/-- All that no arrival changes. -/
abbrev SameCore (t s : State) : Prop :=
    t.pending = s.pending ∧ t.resetHeld = s.resetHeld ∧ t.straps = s.straps ∧ t.device = s.device ∧
    t.purgeCursor = s.purgeCursor ∧ t.settings = s.settings ∧ t.reportMask = s.reportMask ∧ t.classes = s.classes ∧
    t.boards = s.boards ∧ t.symbols = s.symbols

@[simp] theorem setPort_keeps (p : Port) (u : PortUnit) (s : State) :
    SameCore (setPort p u s) s ∧ (setPort p u s).reportQueue = s.reportQueue ∧
    (setPort p u s).counters = s.counters ∧ (setPort p u s).clock = s.clock ∧ (setPort p u s).stations = s.stations ∧
    (setPort p u s).rides = s.rides ∧ (setPort p u s).passes = s.passes ∧ (setPort p u s).tokens = s.tokens ∧
    (setPort p u s).holds = s.holds ∧ (setPort p u s).nextId = s.nextId ∧ (setPort p u s).expiredIds = s.expiredIds := by
  cases p <;> simp [SameCore, setPort]

@[simp] theorem portUnit_setPort (p : Port) (u : PortUnit) (s : State) : portUnit p (setPort p u s) = u := by
  cases p <;> rfl

@[simp] theorem portUnit_setPort_other (p : Port) (u : PortUnit) (s : State) :
    portUnit (otherPort p) (setPort p u s) = portUnit (otherPort p) s := by
  cases p <;> rfl

/-- What holds before a fold and is kept by each of its steps holds after it. -/
theorem foldl_induct {γ : Type} {P : State → Prop} {f : State → γ → State} {l : List γ} {s : State} (h0 : P s)
    (h : ∀ t e, P t → P (f t e)) : P (l.foldl f s) := by
  induction l generalizing s with
  | nil => exact h0
  | cons e rest ih => exact ih (h s e h0)

@[simp] theorem placeTransit_keeps (p : Port) (f : Frame) (s : State) :
    SameCore (placeTransit p f s) s ∧ (placeTransit p f s).reportQueue = s.reportQueue ∧
    (placeTransit p f s).clock = s.clock ∧ (placeTransit p f s).stations = s.stations ∧
    (placeTransit p f s).rides = s.rides ∧ (placeTransit p f s).passes = s.passes ∧
    (placeTransit p f s).tokens = s.tokens ∧ (placeTransit p f s).holds = s.holds ∧
    (placeTransit p f s).nextId = s.nextId ∧ (placeTransit p f s).expiredIds = s.expiredIds := by
  unfold placeTransit; split <;> simp [SameCore]

@[simp] theorem placeOrigin_keeps (p : Port) (f : OriginFrame) (s : State) :
    SameCore (placeOrigin p f s) s ∧ (placeOrigin p f s).reportQueue = s.reportQueue ∧
    (placeOrigin p f s).clock = s.clock ∧ (placeOrigin p f s).stations = s.stations ∧
    (placeOrigin p f s).rides = s.rides ∧ (placeOrigin p f s).passes = s.passes ∧
    (placeOrigin p f s).tokens = s.tokens ∧ (placeOrigin p f s).holds = s.holds ∧
    (placeOrigin p f s).nextId = s.nextId ∧ (placeOrigin p f s).expiredIds = s.expiredIds := by
  unfold placeOrigin; split <;> simp [SameCore]

/-- A frame for the park port leaves the field port as it was. -/
@[simp] theorem placeOrigin_park_field (f : OriginFrame) (s : State) : (placeOrigin .park f s).field = s.field := by
  unfold placeOrigin; split <;> simp [setPort]

/-- A frame for the field port leaves the park port as it was. -/
@[simp] theorem placeOrigin_field_park (f : OriginFrame) (s : State) : (placeOrigin .field f s).park = s.park := by
  unfold placeOrigin; split <;> simp [setPort]

@[simp] theorem forwardFrom_keeps (p : Port) (f : Frame) (s : State) :
    SameCore (forwardFrom p f s) s ∧ (forwardFrom p f s).reportQueue = s.reportQueue ∧
    (forwardFrom p f s).clock = s.clock ∧ (forwardFrom p f s).stations = s.stations ∧
    (forwardFrom p f s).rides = s.rides ∧ (forwardFrom p f s).passes = s.passes ∧
    (forwardFrom p f s).tokens = s.tokens ∧ (forwardFrom p f s).holds = s.holds ∧
    (forwardFrom p f s).nextId = s.nextId ∧ (forwardFrom p f s).expiredIds = s.expiredIds := by
  simp [SameCore, forwardFrom]

@[simp] theorem answerField_keeps (rx : LineRx) (body : Body) (s : State) :
    SameCore (answerField rx body s) s ∧ (answerField rx body s).reportQueue = s.reportQueue ∧
    (answerField rx body s).clock = s.clock ∧ (answerField rx body s).stations = s.stations ∧
    (answerField rx body s).rides = s.rides ∧ (answerField rx body s).passes = s.passes ∧
    (answerField rx body s).tokens = s.tokens ∧ (answerField rx body s).holds = s.holds ∧
    (answerField rx body s).nextId = s.nextId ∧ (answerField rx body s).expiredIds = s.expiredIds := by
  simp [SameCore, answerField]

@[simp] theorem refuse_keeps (rx : LineRx) (kind : Nat) (reason : RefuseReason) (extra : Nat) (s : State) :
    SameCore (refuse rx kind reason extra s) s ∧ (refuse rx kind reason extra s).reportQueue = s.reportQueue ∧
    (refuse rx kind reason extra s).clock = s.clock ∧ (refuse rx kind reason extra s).stations = s.stations ∧
    (refuse rx kind reason extra s).rides = s.rides ∧ (refuse rx kind reason extra s).passes = s.passes ∧
    (refuse rx kind reason extra s).tokens = s.tokens ∧ (refuse rx kind reason extra s).holds = s.holds ∧
    (refuse rx kind reason extra s).nextId = s.nextId ∧ (refuse rx kind reason extra s).expiredIds = s.expiredIds := by
  simp [SameCore, refuse]

@[simp] theorem moveReportsFrom_keeps (waiting : List Report) (s : State) :
    SameCore (moveReportsFrom waiting s) s ∧ (moveReportsFrom waiting s).field = s.field ∧
    (moveReportsFrom waiting s).clock = s.clock ∧ (moveReportsFrom waiting s).stations = s.stations ∧
    (moveReportsFrom waiting s).rides = s.rides ∧ (moveReportsFrom waiting s).passes = s.passes ∧
    (moveReportsFrom waiting s).tokens = s.tokens ∧ (moveReportsFrom waiting s).holds = s.holds ∧
    (moveReportsFrom waiting s).nextId = s.nextId ∧ (moveReportsFrom waiting s).expiredIds = s.expiredIds := by
  induction waiting generalizing s with
  | nil => simp [SameCore, moveReportsFrom]
  | cons r rest ih => unfold moveReportsFrom; split <;> simp [SameCore, ih]

@[simp] theorem moveReports_keeps (s : State) :
    SameCore (moveReports s) s ∧ (moveReports s).field = s.field ∧ (moveReports s).clock = s.clock ∧
    (moveReports s).stations = s.stations ∧ (moveReports s).rides = s.rides ∧ (moveReports s).passes = s.passes ∧
    (moveReports s).tokens = s.tokens ∧ (moveReports s).holds = s.holds ∧ (moveReports s).nextId = s.nextId ∧
    (moveReports s).expiredIds = s.expiredIds := moveReportsFrom_keeps _ s

@[simp] theorem report_keeps (kind : ReportKind) (subject detail : Nat) (s : State) :
    SameCore (report kind subject detail s) s ∧ (report kind subject detail s).field = s.field ∧
    (report kind subject detail s).clock = s.clock ∧ (report kind subject detail s).stations = s.stations ∧
    (report kind subject detail s).rides = s.rides ∧ (report kind subject detail s).passes = s.passes ∧
    (report kind subject detail s).tokens = s.tokens ∧ (report kind subject detail s).holds = s.holds ∧
    (report kind subject detail s).nextId = s.nextId ∧ (report kind subject detail s).expiredIds = s.expiredIds := by
  unfold report; (repeat' split) <;> simp [SameCore]

@[simp] theorem reportClockState_keeps (s : State) :
    SameCore (reportClockState s) s ∧ (reportClockState s).field = s.field ∧ (reportClockState s).clock = s.clock ∧
    (reportClockState s).stations = s.stations ∧ (reportClockState s).rides = s.rides ∧
    (reportClockState s).passes = s.passes ∧ (reportClockState s).tokens = s.tokens ∧
    (reportClockState s).holds = s.holds ∧ (reportClockState s).nextId = s.nextId ∧
    (reportClockState s).expiredIds = s.expiredIds := by
  simp [SameCore, reportClockState]

@[simp] theorem reportSaturation_keeps (s : State) :
    SameCore (reportSaturation s) s ∧ (reportSaturation s).field = s.field ∧ (reportSaturation s).clock = s.clock ∧
    (reportSaturation s).stations = s.stations ∧ (reportSaturation s).rides = s.rides ∧
    (reportSaturation s).passes = s.passes ∧ (reportSaturation s).tokens = s.tokens ∧
    (reportSaturation s).holds = s.holds ∧ (reportSaturation s).nextId = s.nextId ∧
    (reportSaturation s).expiredIds = s.expiredIds := by
  simp [SameCore, reportSaturation]

@[simp] theorem enterDevice_keeps (new : DeviceState) (s : State) :
    (enterDevice new s).pending = s.pending ∧ (enterDevice new s).resetHeld = s.resetHeld ∧
    (enterDevice new s).straps = s.straps ∧ (enterDevice new s).purgeCursor = s.purgeCursor ∧
    (enterDevice new s).settings = s.settings ∧ (enterDevice new s).reportMask = s.reportMask ∧
    (enterDevice new s).field = s.field ∧ (enterDevice new s).clock = s.clock ∧
    (enterDevice new s).stations = s.stations ∧ (enterDevice new s).classes = s.classes ∧
    (enterDevice new s).rides = s.rides ∧ (enterDevice new s).passes = s.passes ∧
    (enterDevice new s).tokens = s.tokens ∧ (enterDevice new s).holds = s.holds ∧
    (enterDevice new s).nextId = s.nextId ∧ (enterDevice new s).expiredIds = s.expiredIds ∧
    (enterDevice new s).boards = s.boards ∧ (enterDevice new s).symbols = s.symbols := by  simp [enterDevice]

end Sys2Proof.Machine
end

