-- ==== Sys2Proof/Laws/Book.lean ====
section
/-! SUPPORT. What the calendar, the pass book and the kiosk exchange leave as they were. -/

namespace Sys2Proof.Machine

@[simp] theorem reserveRoom_keeps (i start party : Nat) (s : State) :
    SameCore (reserveRoom i start party s) s ∧ (reserveRoom i start party s).reportQueue = s.reportQueue ∧
    (reserveRoom i start party s).counters = s.counters ∧ (reserveRoom i start party s).field = s.field ∧
    (reserveRoom i start party s).park = s.park ∧ (reserveRoom i start party s).clock = s.clock ∧
    (reserveRoom i start party s).stations = s.stations ∧ (reserveRoom i start party s).passes = s.passes ∧
    (reserveRoom i start party s).tokens = s.tokens ∧ (reserveRoom i start party s).holds = s.holds ∧
    (reserveRoom i start party s).nextId = s.nextId ∧ (reserveRoom i start party s).expiredIds = s.expiredIds := by
  simp [SameCore, reserveRoom]

@[simp] theorem releaseRoom_keeps (i start party : Nat) (s : State) :
    SameCore (releaseRoom i start party s) s ∧ (releaseRoom i start party s).reportQueue = s.reportQueue ∧
    (releaseRoom i start party s).counters = s.counters ∧ (releaseRoom i start party s).field = s.field ∧
    (releaseRoom i start party s).park = s.park ∧ (releaseRoom i start party s).clock = s.clock ∧
    (releaseRoom i start party s).stations = s.stations ∧ (releaseRoom i start party s).passes = s.passes ∧
    (releaseRoom i start party s).tokens = s.tokens ∧ (releaseRoom i start party s).holds = s.holds ∧
    (releaseRoom i start party s).nextId = s.nextId ∧ (releaseRoom i start party s).expiredIds = s.expiredIds := by
  simp [SameCore, releaseRoom]

@[simp] theorem convertRoom_keeps (i start party : Nat) (s : State) :
    SameCore (convertRoom i start party s) s ∧ (convertRoom i start party s).reportQueue = s.reportQueue ∧
    (convertRoom i start party s).counters = s.counters ∧ (convertRoom i start party s).field = s.field ∧
    (convertRoom i start party s).park = s.park ∧ (convertRoom i start party s).clock = s.clock ∧
    (convertRoom i start party s).stations = s.stations ∧ (convertRoom i start party s).passes = s.passes ∧
    (convertRoom i start party s).tokens = s.tokens ∧ (convertRoom i start party s).holds = s.holds ∧
    (convertRoom i start party s).nextId = s.nextId ∧ (convertRoom i start party s).expiredIds = s.expiredIds := by
  simp [SameCore, convertRoom]

@[simp] theorem returnRoom_keeps (i start length party : Nat) (s : State) :
    SameCore (returnRoom i start length party s) s ∧
    (returnRoom i start length party s).reportQueue = s.reportQueue ∧
    (returnRoom i start length party s).counters = s.counters ∧ (returnRoom i start length party s).field = s.field ∧
    (returnRoom i start length party s).park = s.park ∧ (returnRoom i start length party s).clock = s.clock ∧
    (returnRoom i start length party s).stations = s.stations ∧
    (returnRoom i start length party s).passes = s.passes ∧ (returnRoom i start length party s).tokens = s.tokens ∧
    (returnRoom i start length party s).holds = s.holds ∧ (returnRoom i start length party s).nextId = s.nextId ∧
    (returnRoom i start length party s).expiredIds = s.expiredIds := by
  unfold returnRoom; split <;> simp [SameCore]

@[simp] theorem buildRing_keeps (i : Nat) (s : State) :
    SameCore (buildRing i s) s ∧ (buildRing i s).reportQueue = s.reportQueue ∧
    (buildRing i s).counters = s.counters ∧ (buildRing i s).field = s.field ∧ (buildRing i s).park = s.park ∧
    (buildRing i s).clock = s.clock ∧ (buildRing i s).stations = s.stations ∧ (buildRing i s).passes = s.passes ∧
    (buildRing i s).tokens = s.tokens ∧ (buildRing i s).holds = s.holds ∧ (buildRing i s).nextId = s.nextId ∧
    (buildRing i s).expiredIds = s.expiredIds := by
  simp [SameCore, buildRing]

@[simp] theorem rebuildForLength_keeps (i : Nat) (s : State) :
    SameCore (rebuildForLength i s) s ∧ (rebuildForLength i s).reportQueue = s.reportQueue ∧
    (rebuildForLength i s).counters = s.counters ∧ (rebuildForLength i s).field = s.field ∧
    (rebuildForLength i s).park = s.park ∧ (rebuildForLength i s).clock = s.clock ∧
    (rebuildForLength i s).stations = s.stations ∧ (rebuildForLength i s).passes = s.passes ∧
    (rebuildForLength i s).tokens = s.tokens ∧ (rebuildForLength i s).holds = s.holds ∧
    (rebuildForLength i s).nextId = s.nextId ∧ (rebuildForLength i s).expiredIds = s.expiredIds := by
  unfold rebuildForLength; split <;> simp [SameCore]

@[simp] theorem recomputeCapacity_keeps (i : Nat) (s : State) :
    SameCore (recomputeCapacity i s) s ∧ (recomputeCapacity i s).reportQueue = s.reportQueue ∧
    (recomputeCapacity i s).counters = s.counters ∧ (recomputeCapacity i s).field = s.field ∧
    (recomputeCapacity i s).park = s.park ∧ (recomputeCapacity i s).clock = s.clock ∧
    (recomputeCapacity i s).stations = s.stations ∧ (recomputeCapacity i s).passes = s.passes ∧
    (recomputeCapacity i s).tokens = s.tokens ∧ (recomputeCapacity i s).holds = s.holds ∧
    (recomputeCapacity i s).nextId = s.nextId ∧ (recomputeCapacity i s).expiredIds = s.expiredIds := by
  simp [SameCore, recomputeCapacity]

@[simp] theorem putToken_keeps (t : TokenRec) (s : State) :
    SameCore (putToken t s) s ∧ (putToken t s).reportQueue = s.reportQueue ∧ (putToken t s).counters = s.counters ∧
    (putToken t s).field = s.field ∧ (putToken t s).park = s.park ∧ (putToken t s).clock = s.clock ∧
    (putToken t s).stations = s.stations ∧ (putToken t s).rides = s.rides ∧ (putToken t s).passes = s.passes ∧
    (putToken t s).holds = s.holds ∧ (putToken t s).nextId = s.nextId ∧ (putToken t s).expiredIds = s.expiredIds := by
  unfold putToken; split <;> simp [SameCore]

@[simp] theorem updToken_keeps (token : List Byte) (f : TokenRec → TokenRec) (s : State) :
    SameCore (updToken token f s) s ∧ (updToken token f s).reportQueue = s.reportQueue ∧
    (updToken token f s).counters = s.counters ∧ (updToken token f s).field = s.field ∧
    (updToken token f s).park = s.park ∧ (updToken token f s).clock = s.clock ∧
    (updToken token f s).stations = s.stations ∧ (updToken token f s).rides = s.rides ∧
    (updToken token f s).passes = s.passes ∧ (updToken token f s).holds = s.holds ∧
    (updToken token f s).nextId = s.nextId ∧ (updToken token f s).expiredIds = s.expiredIds := by
  simp [SameCore, updToken]

@[simp] theorem raiseHolds_keeps (token : List Byte) (s : State) :
    SameCore (raiseHolds token s) s ∧ (raiseHolds token s).reportQueue = s.reportQueue ∧
    (raiseHolds token s).counters = s.counters ∧ (raiseHolds token s).field = s.field ∧
    (raiseHolds token s).park = s.park ∧ (raiseHolds token s).clock = s.clock ∧
    (raiseHolds token s).stations = s.stations ∧ (raiseHolds token s).rides = s.rides ∧
    (raiseHolds token s).passes = s.passes ∧ (raiseHolds token s).holds = s.holds ∧
    (raiseHolds token s).nextId = s.nextId ∧ (raiseHolds token s).expiredIds = s.expiredIds := by
  simp [SameCore, raiseHolds]

@[simp] theorem lowerHolds_keeps (token : List Byte) (s : State) :
    SameCore (lowerHolds token s) s ∧ (lowerHolds token s).reportQueue = s.reportQueue ∧
    (lowerHolds token s).counters = s.counters ∧ (lowerHolds token s).field = s.field ∧
    (lowerHolds token s).park = s.park ∧ (lowerHolds token s).clock = s.clock ∧
    (lowerHolds token s).stations = s.stations ∧ (lowerHolds token s).rides = s.rides ∧
    (lowerHolds token s).passes = s.passes ∧ (lowerHolds token s).holds = s.holds ∧
    (lowerHolds token s).nextId = s.nextId ∧ (lowerHolds token s).expiredIds = s.expiredIds := by
  simp [SameCore, lowerHolds]

@[simp] theorem dropPass_keeps (token : List Byte) (k : Nat) (s : State) :
    SameCore (dropPass token k s) s ∧ (dropPass token k s).reportQueue = s.reportQueue ∧
    (dropPass token k s).counters = s.counters ∧ (dropPass token k s).field = s.field ∧
    (dropPass token k s).park = s.park ∧ (dropPass token k s).clock = s.clock ∧
    (dropPass token k s).stations = s.stations ∧ (dropPass token k s).rides = s.rides ∧
    (dropPass token k s).passes = s.passes ∧ (dropPass token k s).holds = s.holds ∧
    (dropPass token k s).nextId = s.nextId ∧ (dropPass token k s).expiredIds = s.expiredIds := by
  simp [SameCore, dropPass]

@[simp] theorem passLog_keeps (event : PassEvent) (k : Nat) (p : Pass) (count : Nat) (s : State) :
    SameCore (passLog event k p count s) s ∧ (passLog event k p count s).reportQueue = s.reportQueue ∧
    (passLog event k p count s).clock = s.clock ∧ (passLog event k p count s).stations = s.stations ∧
    (passLog event k p count s).rides = s.rides ∧ (passLog event k p count s).passes = s.passes ∧
    (passLog event k p count s).tokens = s.tokens ∧ (passLog event k p count s).holds = s.holds ∧
    (passLog event k p count s).nextId = s.nextId ∧ (passLog event k p count s).expiredIds = s.expiredIds := by
  simp [SameCore, passLog]

@[simp] theorem countGranted_keeps (i : Nat) (s : State) :
    SameCore (countGranted i s) s ∧ (countGranted i s).reportQueue = s.reportQueue ∧
    (countGranted i s).counters = s.counters ∧ (countGranted i s).field = s.field ∧
    (countGranted i s).park = s.park ∧ (countGranted i s).clock = s.clock ∧
    (countGranted i s).stations = s.stations ∧ (countGranted i s).passes = s.passes ∧
    (countGranted i s).tokens = s.tokens ∧ (countGranted i s).holds = s.holds ∧
    (countGranted i s).nextId = s.nextId ∧ (countGranted i s).expiredIds = s.expiredIds := by
  simp [SameCore, countGranted]

@[simp] theorem createGranted_keeps (h : Hold) (s : State) :
    SameCore (createGranted h s) s ∧ (createGranted h s).reportQueue = s.reportQueue ∧
    (createGranted h s).clock = s.clock ∧ (createGranted h s).stations = s.stations ∧
    (createGranted h s).holds = s.holds ∧ (createGranted h s).nextId = s.nextId ∧
    (createGranted h s).expiredIds = s.expiredIds := by
  simp [SameCore, createGranted]

@[simp] theorem createCourtesy_keeps (token : List Byte) (i party : Nat) (s : State) :
    SameCore (createCourtesy token i party s) s ∧ (createCourtesy token i party s).reportQueue = s.reportQueue ∧
    (createCourtesy token i party s).clock = s.clock ∧ (createCourtesy token i party s).stations = s.stations ∧
    (createCourtesy token i party s).holds = s.holds ∧ (createCourtesy token i party s).nextId = s.nextId ∧
    (createCourtesy token i party s).expiredIds = s.expiredIds := by
  simp [SameCore, createCourtesy]

@[simp] theorem freePass_keeps (k : Nat) (p : Pass) (s : State) :
    SameCore (freePass k p s) s ∧ (freePass k p s).reportQueue = s.reportQueue ∧
    (freePass k p s).counters = s.counters ∧ (freePass k p s).field = s.field ∧ (freePass k p s).park = s.park ∧
    (freePass k p s).clock = s.clock ∧ (freePass k p s).stations = s.stations ∧ (freePass k p s).rides = s.rides ∧
    (freePass k p s).holds = s.holds ∧ (freePass k p s).nextId = s.nextId ∧
    (freePass k p s).expiredIds = s.expiredIds := by
  simp [SameCore, freePass]

@[simp] theorem admitOn_keeps (k : Nat) (p : Pass) (guests : Nat) (s : State) :
    SameCore (admitOn k p guests s) s ∧ (admitOn k p guests s).reportQueue = s.reportQueue ∧
    (admitOn k p guests s).counters = s.counters ∧ (admitOn k p guests s).field = s.field ∧
    (admitOn k p guests s).park = s.park ∧ (admitOn k p guests s).clock = s.clock ∧
    (admitOn k p guests s).stations = s.stations ∧ (admitOn k p guests s).rides = s.rides ∧
    (admitOn k p guests s).holds = s.holds ∧ (admitOn k p guests s).nextId = s.nextId ∧
    (admitOn k p guests s).expiredIds = s.expiredIds := by
  unfold admitOn; split <;> simp [SameCore]

@[simp] theorem examinePass_keeps (k : Nat) (p : Pass) (s : State) :
    SameCore (examinePass k p s) s ∧ (examinePass k p s).reportQueue = s.reportQueue ∧
    (examinePass k p s).clock = s.clock ∧ (examinePass k p s).stations = s.stations ∧
    (examinePass k p s).rides = s.rides ∧ (examinePass k p s).holds = s.holds ∧
    (examinePass k p s).nextId = s.nextId ∧ (examinePass k p s).expiredIds = s.expiredIds := by
  unfold examinePass; split <;> simp [SameCore]

@[simp] theorem expirePasses_keeps (m : Nat) (s : State) :
    SameCore (expirePasses m s) s ∧ (expirePasses m s).reportQueue = s.reportQueue ∧
    (expirePasses m s).clock = s.clock ∧ (expirePasses m s).stations = s.stations ∧
    (expirePasses m s).rides = s.rides ∧ (expirePasses m s).holds = s.holds ∧ (expirePasses m s).nextId = s.nextId ∧
    (expirePasses m s).expiredIds = s.expiredIds := by
  unfold expirePasses
  refine foldl_induct (P := fun t =>
    SameCore t s ∧ t.reportQueue = s.reportQueue ∧ t.clock = s.clock ∧ t.stations = s.stations ∧ t.rides = s.rides ∧
    t.holds = s.holds ∧ t.nextId = s.nextId ∧ t.expiredIds = s.expiredIds) ?_ ?_
  · simp [SameCore]
  · intro t e h; simpa [SameCore] using h

@[simp] theorem returnFor_keeps (p : Pass) (s : State) :
    SameCore (returnFor p s) s ∧ (returnFor p s).reportQueue = s.reportQueue ∧
    (returnFor p s).counters = s.counters ∧ (returnFor p s).field = s.field ∧ (returnFor p s).park = s.park ∧
    (returnFor p s).clock = s.clock ∧ (returnFor p s).stations = s.stations ∧ (returnFor p s).passes = s.passes ∧
    (returnFor p s).tokens = s.tokens ∧ (returnFor p s).holds = s.holds ∧ (returnFor p s).nextId = s.nextId ∧
    (returnFor p s).expiredIds = s.expiredIds := by
  unfold returnFor; split <;> simp [SameCore]

@[simp] theorem cancelLive_keeps (k : Nat) (p : Pass) (s : State) :
    SameCore (cancelLive k p s) s ∧ (cancelLive k p s).reportQueue = s.reportQueue ∧
    (cancelLive k p s).clock = s.clock ∧ (cancelLive k p s).stations = s.stations ∧
    (cancelLive k p s).holds = s.holds ∧ (cancelLive k p s).nextId = s.nextId ∧
    (cancelLive k p s).expiredIds = s.expiredIds := by
  simp [SameCore, cancelLive]

@[simp] theorem cancelHold_keeps (slot : Nat) (h : Hold) (s : State) :
    SameCore (cancelHold slot h s) s ∧ (cancelHold slot h s).reportQueue = s.reportQueue ∧
    (cancelHold slot h s).counters = s.counters ∧ (cancelHold slot h s).field = s.field ∧
    (cancelHold slot h s).park = s.park ∧ (cancelHold slot h s).clock = s.clock ∧
    (cancelHold slot h s).stations = s.stations ∧ (cancelHold slot h s).rides = s.rides ∧
    (cancelHold slot h s).passes = s.passes ∧ (cancelHold slot h s).nextId = s.nextId ∧
    (cancelHold slot h s).expiredIds = s.expiredIds := by
  simp [SameCore, cancelHold]

@[simp] theorem releaseHold_keeps (slot : Nat) (h : Hold) (s : State) :
    SameCore (releaseHold slot h s) s ∧ (releaseHold slot h s).reportQueue = s.reportQueue ∧
    (releaseHold slot h s).counters = s.counters ∧ (releaseHold slot h s).field = s.field ∧
    (releaseHold slot h s).park = s.park ∧ (releaseHold slot h s).clock = s.clock ∧
    (releaseHold slot h s).stations = s.stations ∧ (releaseHold slot h s).passes = s.passes ∧
    (releaseHold slot h s).nextId = s.nextId ∧ (releaseHold slot h s).expiredIds = s.expiredIds := by
  simp [SameCore, releaseHold]

@[simp] theorem expireHold_keeps (slot : Nat) (h : Hold) (s : State) :
    SameCore (expireHold slot h s) s ∧ (expireHold slot h s).reportQueue = s.reportQueue ∧
    (expireHold slot h s).counters = s.counters ∧ (expireHold slot h s).field = s.field ∧
    (expireHold slot h s).park = s.park ∧ (expireHold slot h s).clock = s.clock ∧
    (expireHold slot h s).stations = s.stations ∧ (expireHold slot h s).passes = s.passes ∧
    (expireHold slot h s).nextId = s.nextId := by
  simp [SameCore, expireHold]

@[simp] theorem releaseHoldsOn_keeps (i : Nat) (s : State) :
    SameCore (releaseHoldsOn i s) s ∧ (releaseHoldsOn i s).reportQueue = s.reportQueue ∧
    (releaseHoldsOn i s).counters = s.counters ∧ (releaseHoldsOn i s).field = s.field ∧
    (releaseHoldsOn i s).park = s.park ∧ (releaseHoldsOn i s).clock = s.clock ∧
    (releaseHoldsOn i s).stations = s.stations ∧ (releaseHoldsOn i s).passes = s.passes ∧
    (releaseHoldsOn i s).nextId = s.nextId ∧ (releaseHoldsOn i s).expiredIds = s.expiredIds := by
  unfold releaseHoldsOn
  refine foldl_induct (P := fun t =>
    SameCore t s ∧ t.reportQueue = s.reportQueue ∧ t.counters = s.counters ∧ t.field = s.field ∧ t.park = s.park ∧
    t.clock = s.clock ∧ t.stations = s.stations ∧ t.passes = s.passes ∧ t.nextId = s.nextId ∧
    t.expiredIds = s.expiredIds) ?_ ?_
  · simp [SameCore]
  · intro t e h; simpa [SameCore] using h

@[simp] theorem cancelHoldsOn_keeps (i : Nat) (starts : List Nat) (s : State) :
    SameCore (cancelHoldsOn i starts s) s ∧ (cancelHoldsOn i starts s).reportQueue = s.reportQueue ∧
    (cancelHoldsOn i starts s).counters = s.counters ∧ (cancelHoldsOn i starts s).field = s.field ∧
    (cancelHoldsOn i starts s).park = s.park ∧ (cancelHoldsOn i starts s).clock = s.clock ∧
    (cancelHoldsOn i starts s).stations = s.stations ∧ (cancelHoldsOn i starts s).rides = s.rides ∧
    (cancelHoldsOn i starts s).passes = s.passes ∧ (cancelHoldsOn i starts s).nextId = s.nextId ∧
    (cancelHoldsOn i starts s).expiredIds = s.expiredIds := by
  unfold cancelHoldsOn
  refine foldl_induct (P := fun t =>
    SameCore t s ∧ t.reportQueue = s.reportQueue ∧ t.counters = s.counters ∧ t.field = s.field ∧ t.park = s.park ∧
    t.clock = s.clock ∧ t.stations = s.stations ∧ t.rides = s.rides ∧ t.passes = s.passes ∧ t.nextId = s.nextId ∧
    t.expiredIds = s.expiredIds) ?_ ?_
  · simp [SameCore]
  · intro t e h; simpa [SameCore] using h

@[simp] theorem rollOnce_keeps (i : Nat) (w : Window) (s : State) :
    SameCore (rollOnce i w s) s ∧ (rollOnce i w s).reportQueue = s.reportQueue ∧
    (rollOnce i w s).counters = s.counters ∧ (rollOnce i w s).field = s.field ∧ (rollOnce i w s).park = s.park ∧
    (rollOnce i w s).clock = s.clock ∧ (rollOnce i w s).stations = s.stations ∧ (rollOnce i w s).passes = s.passes ∧
    (rollOnce i w s).nextId = s.nextId ∧ (rollOnce i w s).expiredIds = s.expiredIds := by
  simp [SameCore, rollOnce]

@[simp] theorem rollTo_keeps (fuel i m : Nat) (s : State) :
    SameCore (rollTo fuel i m s) s ∧ (rollTo fuel i m s).reportQueue = s.reportQueue ∧
    (rollTo fuel i m s).counters = s.counters ∧ (rollTo fuel i m s).field = s.field ∧
    (rollTo fuel i m s).park = s.park ∧ (rollTo fuel i m s).clock = s.clock ∧
    (rollTo fuel i m s).stations = s.stations ∧ (rollTo fuel i m s).passes = s.passes ∧
    (rollTo fuel i m s).nextId = s.nextId ∧ (rollTo fuel i m s).expiredIds = s.expiredIds := by
  induction fuel generalizing s with
  | zero => simp [SameCore, rollTo]
  | succ n ih => unfold rollTo; (repeat' split) <;> simp [SameCore, ih]

@[simp] theorem rebuildAt_keeps (i minute : Nat) (s : State) :
    SameCore (rebuildAt i minute s) s ∧ (rebuildAt i minute s).reportQueue = s.reportQueue ∧
    (rebuildAt i minute s).counters = s.counters ∧ (rebuildAt i minute s).field = s.field ∧
    (rebuildAt i minute s).park = s.park ∧ (rebuildAt i minute s).clock = s.clock ∧
    (rebuildAt i minute s).stations = s.stations ∧ (rebuildAt i minute s).passes = s.passes ∧
    (rebuildAt i minute s).nextId = s.nextId ∧ (rebuildAt i minute s).expiredIds = s.expiredIds := by
  simp [SameCore, rebuildAt]

@[simp] theorem ringMinute_keeps (first last m i : Nat) (s : State) :
    SameCore (ringMinute first last m i s) s ∧ (ringMinute first last m i s).reportQueue = s.reportQueue ∧
    (ringMinute first last m i s).counters = s.counters ∧ (ringMinute first last m i s).field = s.field ∧
    (ringMinute first last m i s).park = s.park ∧ (ringMinute first last m i s).clock = s.clock ∧
    (ringMinute first last m i s).stations = s.stations ∧ (ringMinute first last m i s).passes = s.passes ∧
    (ringMinute first last m i s).nextId = s.nextId ∧ (ringMinute first last m i s).expiredIds = s.expiredIds := by
  unfold ringMinute; (repeat' split) <;> simp [SameCore]

@[simp] theorem calendarMinute_keeps (first last m : Nat) (s : State) :
    SameCore (calendarMinute first last m s) s ∧ (calendarMinute first last m s).reportQueue = s.reportQueue ∧
    (calendarMinute first last m s).counters = s.counters ∧ (calendarMinute first last m s).field = s.field ∧
    (calendarMinute first last m s).park = s.park ∧ (calendarMinute first last m s).clock = s.clock ∧
    (calendarMinute first last m s).stations = s.stations ∧ (calendarMinute first last m s).passes = s.passes ∧
    (calendarMinute first last m s).nextId = s.nextId ∧ (calendarMinute first last m s).expiredIds = s.expiredIds := by
  unfold calendarMinute
  refine foldl_induct (P := fun t =>
    SameCore t s ∧ t.reportQueue = s.reportQueue ∧ t.counters = s.counters ∧ t.field = s.field ∧ t.park = s.park ∧
    t.clock = s.clock ∧ t.stations = s.stations ∧ t.passes = s.passes ∧ t.nextId = s.nextId ∧
    t.expiredIds = s.expiredIds) ?_ ?_
  · simp [SameCore]
  · intro t e h; simpa [SameCore] using h

@[simp] theorem minuteEvent_keeps (first last m : Nat) (s : State) :
    SameCore (minuteEvent first last m s) s ∧ (minuteEvent first last m s).reportQueue = s.reportQueue ∧
    (minuteEvent first last m s).clock = s.clock ∧ (minuteEvent first last m s).stations = s.stations ∧
    (minuteEvent first last m s).nextId = s.nextId ∧ (minuteEvent first last m s).expiredIds = s.expiredIds := by
  simp [SameCore, minuteEvent]

@[simp] theorem minuteRun_keeps (first count : Nat) (s : State) :
    SameCore (minuteRun first count s) s ∧ (minuteRun first count s).reportQueue = s.reportQueue ∧
    (minuteRun first count s).clock = s.clock ∧ (minuteRun first count s).stations = s.stations ∧
    (minuteRun first count s).nextId = s.nextId ∧ (minuteRun first count s).expiredIds = s.expiredIds := by
  unfold minuteRun
  refine foldl_induct (P := fun t =>
    SameCore t s ∧ t.reportQueue = s.reportQueue ∧ t.clock = s.clock ∧ t.stations = s.stations ∧
    t.nextId = s.nextId ∧ t.expiredIds = s.expiredIds) ?_ ?_
  · simp [SameCore]
  · intro t e h; simpa [SameCore] using h

end Sys2Proof.Machine
end

