-- ==== Sys2Proof/Laws/Clock.lean ====
section
/-! SUPPORT. What the park clock leaves as it was. -/

namespace Sys2Proof.Machine

@[simp] theorem raiseMinutes_keeps (new : Nat) (s : State) :
    SameCore (raiseMinutes new s) s ∧ (raiseMinutes new s).reportQueue = s.reportQueue ∧
    (raiseMinutes new s).stations = s.stations ∧ (raiseMinutes new s).nextId = s.nextId ∧
    (raiseMinutes new s).expiredIds = s.expiredIds := by
  unfold raiseMinutes; (repeat' split) <;> simp [SameCore]

@[simp] theorem advanceParkTime_keeps (old : Nat) (s : State) :
    SameCore (advanceParkTime old s) s ∧ (advanceParkTime old s).stations = s.stations ∧
    (advanceParkTime old s).nextId = s.nextId ∧ (advanceParkTime old s).expiredIds = s.expiredIds := by
  unfold advanceParkTime; dsimp only; split <;> simp [SameCore]

@[simp] theorem tickSecond_keeps (s : State) :
    SameCore (tickSecond s) s ∧ (tickSecond s).stations = s.stations ∧ (tickSecond s).nextId = s.nextId ∧
    (tickSecond s).expiredIds = s.expiredIds := by
  unfold tickSecond; dsimp only; (repeat' split) <;> simp [SameCore]

@[simp] theorem acceptTime_keeps (v : Nat) (s : State) :
    SameCore (acceptTime v s) s ∧ (acceptTime v s).stations = s.stations ∧ (acceptTime v s).nextId = s.nextId ∧
    (acceptTime v s).expiredIds = s.expiredIds := by
  unfold acceptTime; dsimp only; (repeat' split) <;> simp [SameCore]

@[simp] theorem acceptJump_keeps (v : Nat) (s : State) :
    SameCore (acceptJump v s) s ∧ (acceptJump v s).stations = s.stations ∧ (acceptJump v s).nextId = s.nextId ∧
    (acceptJump v s).expiredIds = s.expiredIds := by
  simp [SameCore, acceptJump]

@[simp] theorem takeTime_keeps (v : Nat) (s : State) :
    SameCore (takeTime v s) s ∧ (takeTime v s).stations = s.stations ∧ (takeTime v s).nextId = s.nextId ∧
    (takeTime v s).expiredIds = s.expiredIds := by
  unfold takeTime; (repeat' split) <;> simp [SameCore]

end Sys2Proof.Machine
end

