-- ==== Sys2Proof/Laws/Lane.lean ====
section
/-! SUPPORT. What the return lane and the station table leave as they were. -/

namespace Sys2Proof.Machine

@[simp] theorem sendRelease_keeps (i : Nat) (s : State) :
    SameCore (sendRelease i s) s ∧ (sendRelease i s).reportQueue = s.reportQueue ∧
    (sendRelease i s).clock = s.clock ∧ (sendRelease i s).stations = s.stations ∧
    (sendRelease i s).passes = s.passes ∧ (sendRelease i s).tokens = s.tokens ∧ (sendRelease i s).holds = s.holds ∧
    (sendRelease i s).nextId = s.nextId ∧ (sendRelease i s).expiredIds = s.expiredIds := by
  simp [SameCore, sendRelease]

@[simp] theorem testRelease_keeps (i : Nat) (s : State) :
    SameCore (testRelease i s) s ∧ (testRelease i s).reportQueue = s.reportQueue ∧
    (testRelease i s).clock = s.clock ∧ (testRelease i s).stations = s.stations ∧
    (testRelease i s).passes = s.passes ∧ (testRelease i s).tokens = s.tokens ∧ (testRelease i s).holds = s.holds ∧
    (testRelease i s).nextId = s.nextId ∧ (testRelease i s).expiredIds = s.expiredIds := by
  unfold testRelease; split <;> simp [SameCore]

@[simp] theorem setOccupancy_keeps (i v : Nat) (s : State) :
    SameCore (setOccupancy i v s) s ∧ (setOccupancy i v s).reportQueue = s.reportQueue ∧
    (setOccupancy i v s).counters = s.counters ∧ (setOccupancy i v s).field = s.field ∧
    (setOccupancy i v s).park = s.park ∧ (setOccupancy i v s).clock = s.clock ∧
    (setOccupancy i v s).stations = s.stations ∧ (setOccupancy i v s).passes = s.passes ∧
    (setOccupancy i v s).tokens = s.tokens ∧ (setOccupancy i v s).holds = s.holds ∧
    (setOccupancy i v s).nextId = s.nextId ∧ (setOccupancy i v s).expiredIds = s.expiredIds := by
  simp [SameCore, setOccupancy]

@[simp] theorem raiseOccupancy_keeps (i guests : Nat) (s : State) :
    SameCore (raiseOccupancy i guests s) s ∧ (raiseOccupancy i guests s).clock = s.clock ∧
    (raiseOccupancy i guests s).stations = s.stations ∧ (raiseOccupancy i guests s).passes = s.passes ∧
    (raiseOccupancy i guests s).tokens = s.tokens ∧ (raiseOccupancy i guests s).holds = s.holds ∧
    (raiseOccupancy i guests s).nextId = s.nextId ∧ (raiseOccupancy i guests s).expiredIds = s.expiredIds := by
  unfold raiseOccupancy; dsimp only; (repeat' split) <;> simp [SameCore]

@[simp] theorem lowerOccupancy_keeps (i guests : Nat) (s : State) :
    SameCore (lowerOccupancy i guests s) s ∧ (lowerOccupancy i guests s).field = s.field ∧
    (lowerOccupancy i guests s).clock = s.clock ∧ (lowerOccupancy i guests s).stations = s.stations ∧
    (lowerOccupancy i guests s).passes = s.passes ∧ (lowerOccupancy i guests s).tokens = s.tokens ∧
    (lowerOccupancy i guests s).holds = s.holds ∧ (lowerOccupancy i guests s).nextId = s.nextId ∧
    (lowerOccupancy i guests s).expiredIds = s.expiredIds := by
  unfold lowerOccupancy; dsimp only; (repeat' split) <;> simp [SameCore]

@[simp] theorem setReturn_keeps (i v : Nat) (s : State) :
    SameCore (setReturn i v s) s ∧ (setReturn i v s).reportQueue = s.reportQueue ∧
    (setReturn i v s).clock = s.clock ∧ (setReturn i v s).stations = s.stations ∧
    (setReturn i v s).passes = s.passes ∧ (setReturn i v s).tokens = s.tokens ∧ (setReturn i v s).holds = s.holds ∧
    (setReturn i v s).nextId = s.nextId ∧ (setReturn i v s).expiredIds = s.expiredIds := by
  simp [SameCore, setReturn]

@[simp] theorem addBoardings_keeps (i guests : Nat) (s : State) :
    SameCore (addBoardings i guests s) s ∧ (addBoardings i guests s).reportQueue = s.reportQueue ∧
    (addBoardings i guests s).clock = s.clock ∧ (addBoardings i guests s).stations = s.stations ∧
    (addBoardings i guests s).passes = s.passes ∧ (addBoardings i guests s).tokens = s.tokens ∧
    (addBoardings i guests s).holds = s.holds ∧ (addBoardings i guests s).nextId = s.nextId ∧
    (addBoardings i guests s).expiredIds = s.expiredIds := by
  simp [SameCore, addBoardings]

@[simp] theorem setGateSilence_keeps (i : Nat) (silent : Bool) (s : State) :
    SameCore (setGateSilence i silent s) s ∧ (setGateSilence i silent s).reportQueue = s.reportQueue ∧
    (setGateSilence i silent s).clock = s.clock ∧ (setGateSilence i silent s).stations = s.stations ∧
    (setGateSilence i silent s).passes = s.passes ∧ (setGateSilence i silent s).tokens = s.tokens ∧
    (setGateSilence i silent s).holds = s.holds ∧ (setGateSilence i silent s).nextId = s.nextId ∧
    (setGateSilence i silent s).expiredIds = s.expiredIds := by
  unfold setGateSilence; dsimp only; split <;> simp [SameCore]

@[simp] theorem takeReleased_keeps (i n : Nat) (s : State) :
    SameCore (takeReleased i n s) s ∧ (takeReleased i n s).clock = s.clock ∧
    (takeReleased i n s).stations = s.stations ∧ (takeReleased i n s).passes = s.passes ∧
    (takeReleased i n s).tokens = s.tokens ∧ (takeReleased i n s).holds = s.holds ∧
    (takeReleased i n s).nextId = s.nextId ∧ (takeReleased i n s).expiredIds = s.expiredIds := by
  unfold takeReleased; split <;> simp [SameCore]

@[simp] theorem timeOutRelease_keeps (i : Nat) (o : Release) (s : State) :
    SameCore (timeOutRelease i o s) s ∧ (timeOutRelease i o s).clock = s.clock ∧
    (timeOutRelease i o s).stations = s.stations ∧ (timeOutRelease i o s).passes = s.passes ∧
    (timeOutRelease i o s).tokens = s.tokens ∧ (timeOutRelease i o s).holds = s.holds ∧
    (timeOutRelease i o s).nextId = s.nextId ∧ (timeOutRelease i o s).expiredIds = s.expiredIds := by
  simp [SameCore, timeOutRelease]

@[simp] theorem syncCounterSilence_keeps (i : Nat) (s : State) :
    SameCore (syncCounterSilence i s) s ∧ (syncCounterSilence i s).reportQueue = s.reportQueue ∧
    (syncCounterSilence i s).counters = s.counters ∧ (syncCounterSilence i s).field = s.field ∧
    (syncCounterSilence i s).park = s.park ∧ (syncCounterSilence i s).clock = s.clock ∧
    (syncCounterSilence i s).stations = s.stations ∧ (syncCounterSilence i s).passes = s.passes ∧
    (syncCounterSilence i s).tokens = s.tokens ∧ (syncCounterSilence i s).holds = s.holds ∧
    (syncCounterSilence i s).nextId = s.nextId ∧ (syncCounterSilence i s).expiredIds = s.expiredIds := by
  unfold syncCounterSilence; split <;> simp [SameCore]

@[simp] theorem syncControlSilence_keeps (i : Nat) (s : State) :
    SameCore (syncControlSilence i s) s ∧ (syncControlSilence i s).reportQueue = s.reportQueue ∧
    (syncControlSilence i s).counters = s.counters ∧ (syncControlSilence i s).field = s.field ∧
    (syncControlSilence i s).park = s.park ∧ (syncControlSilence i s).clock = s.clock ∧
    (syncControlSilence i s).stations = s.stations ∧ (syncControlSilence i s).passes = s.passes ∧
    (syncControlSilence i s).tokens = s.tokens ∧ (syncControlSilence i s).holds = s.holds ∧
    (syncControlSilence i s).nextId = s.nextId ∧ (syncControlSilence i s).expiredIds = s.expiredIds := by
  unfold syncControlSilence; split <;> simp [SameCore]

@[simp] theorem syncGateSilence_keeps (i : Nat) (s : State) :
    SameCore (syncGateSilence i s) s ∧ (syncGateSilence i s).reportQueue = s.reportQueue ∧
    (syncGateSilence i s).clock = s.clock ∧ (syncGateSilence i s).stations = s.stations ∧
    (syncGateSilence i s).passes = s.passes ∧ (syncGateSilence i s).tokens = s.tokens ∧
    (syncGateSilence i s).holds = s.holds ∧ (syncGateSilence i s).nextId = s.nextId ∧
    (syncGateSilence i s).expiredIds = s.expiredIds := by
  unfold syncGateSilence; split <;> simp [SameCore]

@[simp] theorem syncSilence_keeps (i : Nat) (s : State) :
    SameCore (syncSilence i s) s ∧ (syncSilence i s).reportQueue = s.reportQueue ∧
    (syncSilence i s).clock = s.clock ∧ (syncSilence i s).stations = s.stations ∧
    (syncSilence i s).passes = s.passes ∧ (syncSilence i s).tokens = s.tokens ∧ (syncSilence i s).holds = s.holds ∧
    (syncSilence i s).nextId = s.nextId ∧ (syncSilence i s).expiredIds = s.expiredIds := by
  simp [SameCore, syncSilence]

@[simp] theorem syncStation_keeps (st : Station) (s : State) :
    SameCore (syncStation st s) s ∧ (syncStation st s).reportQueue = s.reportQueue ∧
    (syncStation st s).clock = s.clock ∧ (syncStation st s).stations = s.stations ∧
    (syncStation st s).passes = s.passes ∧ (syncStation st s).tokens = s.tokens ∧
    (syncStation st s).holds = s.holds ∧ (syncStation st s).nextId = s.nextId ∧
    (syncStation st s).expiredIds = s.expiredIds := by
  unfold syncStation; (repeat' split) <;> simp [SameCore]

@[simp] theorem hear_keeps (number : Nat) (st : Station) (s : State) :
    SameCore (hear number st s) s ∧ (hear number st s).clock = s.clock ∧ (hear number st s).passes = s.passes ∧
    (hear number st s).tokens = s.tokens ∧ (hear number st s).holds = s.holds ∧
    (hear number st s).nextId = s.nextId ∧ (hear number st s).expiredIds = s.expiredIds := by
  unfold hear; dsimp only; split <;> simp [SameCore]

@[simp] theorem goSilent_keeps (number : Nat) (st : Station) (s : State) :
    SameCore (goSilent number st s) s ∧ (goSilent number st s).clock = s.clock ∧
    (goSilent number st s).passes = s.passes ∧ (goSilent number st s).tokens = s.tokens ∧
    (goSilent number st s).holds = s.holds ∧ (goSilent number st s).nextId = s.nextId ∧
    (goSilent number st s).expiredIds = s.expiredIds := by
  simp [SameCore, goSilent]

@[simp] theorem leaveTable_keeps (old : Option Station) (s : State) :
    SameCore (leaveTable old s) s ∧ (leaveTable old s).reportQueue = s.reportQueue ∧
    (leaveTable old s).clock = s.clock ∧ (leaveTable old s).stations = s.stations ∧
    (leaveTable old s).passes = s.passes ∧ (leaveTable old s).tokens = s.tokens ∧
    (leaveTable old s).holds = s.holds ∧ (leaveTable old s).nextId = s.nextId ∧
    (leaveTable old s).expiredIds = s.expiredIds := by
  unfold leaveTable; (repeat' split) <;> simp [SameCore]

end Sys2Proof.Machine
end

