-- ==== Sys2Proof/Laws/Rides.lean ====
section
/-! SUPPORT. What the estimator writes, and what it and the ride table leave as they were. -/

namespace Sys2Proof.Machine

/-! ## The estimator -/

/-- A recomputation writes S and W_raw alone (R76). -/
theorem recompute_is (r : Ride) :
    recompute r =
      { r with est := { r.est with standbyRate := (recompute r).est.standbyRate,
                                   rawWait := (recompute r).est.rawWait } } := by
  unfold recompute; split <;> rfl

/-- A posting run writes P and the first posting mark alone (R78 to R80). -/
theorem postingRun_is (r : Ride) :
    postingRun r =
      { r with est := { r.est with posted := (postingRun r).est.posted,
                                   firstPosting := (postingRun r).est.firstPosting } } := by
  unfold postingRun; (repeat' split) <;> rfl

/-- What a posting run makes of the estimate depends on the configuration, the ride state and the estimate. -/
theorem postingRun_congr (r q : Ride) (hc : r.cfg = q.cfg) (hs : r.state = q.state) (he : r.est = q.est) :
    (postingRun r).est = (postingRun q).est := by
  simp only [postingRun, hc, hs, he]; split <;> (try split) <;> (try split) <;> simp_all

/-- A changed configuration writes the estimate alone, by way of the throughput. -/
theorem estimatorReconfigured_is (old new : RideCfg) (rate : Nat) (r : Ride) :
    ∃ t, t = (if new.classNo = old.classNo then r else clampThroughput rate r).est.throughput ∧
      estimatorReconfigured old new rate r =
        (let banded : Ride := { r with est := { r.est with throughput := t } }
         if t = r.est.throughput ∧ new.displayStep = old.displayStep ∧ new.queueBase = old.queueBase ∧
            new.threshold = old.threshold ∧ new.batch = old.batch then banded
         else if new.displayStep = old.displayStep then postingRun (recompute banded)
         else
          { recompute banded with est := { (recompute banded).est with
              posted := candidateOf new.displayStep (recompute banded).est.rawWait } }) := by
  refine ⟨_, rfl, ?_⟩
  unfold estimatorReconfigured
  have h : (if new.classNo = old.classNo then r else clampThroughput rate r) =
      { r with est := { r.est with
          throughput := (if new.classNo = old.classNo then r else clampThroughput rate r).est.throughput } } := by
    split <;> rfl
  generalize (if new.classNo = old.classNo then r else clampThroughput rate r) = b at h ⊢
  dsimp only
  rw [← h]

/-! ## What stays -/

@[simp] theorem openOutage_keeps (i : Nat) (s : State) :
    SameCore (openOutage i s) s ∧ (openOutage i s).field = s.field ∧ (openOutage i s).clock = s.clock ∧
    (openOutage i s).stations = s.stations ∧ (openOutage i s).passes = s.passes ∧
    (openOutage i s).tokens = s.tokens ∧ (openOutage i s).holds = s.holds ∧ (openOutage i s).nextId = s.nextId ∧
    (openOutage i s).expiredIds = s.expiredIds := by
  unfold openOutage; dsimp only; split <;> simp [SameCore]

@[simp] theorem closeOutage_keeps (i : Nat) (s : State) :
    SameCore (closeOutage i s) s ∧ (closeOutage i s).reportQueue = s.reportQueue ∧
    (closeOutage i s).counters = s.counters ∧ (closeOutage i s).field = s.field ∧ (closeOutage i s).park = s.park ∧
    (closeOutage i s).clock = s.clock ∧ (closeOutage i s).stations = s.stations ∧
    (closeOutage i s).passes = s.passes ∧ (closeOutage i s).tokens = s.tokens ∧ (closeOutage i s).holds = s.holds ∧
    (closeOutage i s).nextId = s.nextId ∧ (closeOutage i s).expiredIds = s.expiredIds := by
  simp [SameCore, closeOutage]

@[simp] theorem enterState_keeps (i : Nat) (new : RideState) (s : State) :
    SameCore (enterState i new s) s ∧ (enterState i new s).clock = s.clock ∧
    (enterState i new s).stations = s.stations ∧ (enterState i new s).passes = s.passes ∧
    (enterState i new s).nextId = s.nextId ∧ (enterState i new s).expiredIds = s.expiredIds := by
  unfold enterState; dsimp only; (repeat' split) <;> simp [SameCore]

@[simp] theorem moveRide_keeps (i : Nat) (new : RideState) (s : State) :
    SameCore (moveRide i new s) s ∧ (moveRide i new s).clock = s.clock ∧ (moveRide i new s).stations = s.stations ∧
    (moveRide i new s).passes = s.passes ∧ (moveRide i new s).nextId = s.nextId ∧
    (moveRide i new s).expiredIds = s.expiredIds := by
  unfold moveRide; (repeat' split) <;> simp [SameCore]

@[simp] theorem takeRideState_keeps (i code : Nat) (s : State) :
    SameCore (takeRideState i code s) s ∧ (takeRideState i code s).clock = s.clock ∧
    (takeRideState i code s).stations = s.stations ∧ (takeRideState i code s).passes = s.passes ∧
    (takeRideState i code s).nextId = s.nextId ∧ (takeRideState i code s).expiredIds = s.expiredIds := by
  unfold takeRideState; (repeat' split) <;> simp [SameCore]

@[simp] theorem closeIfOpen_keeps (i : Nat) (s : State) :
    SameCore (closeIfOpen i s) s ∧ (closeIfOpen i s).clock = s.clock ∧ (closeIfOpen i s).stations = s.stations ∧
    (closeIfOpen i s).passes = s.passes ∧ (closeIfOpen i s).nextId = s.nextId ∧
    (closeIfOpen i s).expiredIds = s.expiredIds := by
  unfold closeIfOpen; split <;> simp [SameCore]

@[simp] theorem setStandby_keeps (i v : Nat) (s : State) :
    SameCore (setStandby i v s) s ∧ (setStandby i v s).reportQueue = s.reportQueue ∧
    (setStandby i v s).counters = s.counters ∧ (setStandby i v s).field = s.field ∧
    (setStandby i v s).park = s.park ∧ (setStandby i v s).clock = s.clock ∧
    (setStandby i v s).stations = s.stations ∧ (setStandby i v s).passes = s.passes ∧
    (setStandby i v s).tokens = s.tokens ∧ (setStandby i v s).holds = s.holds ∧
    (setStandby i v s).nextId = s.nextId ∧ (setStandby i v s).expiredIds = s.expiredIds := by
  simp [SameCore, setStandby]

@[simp] theorem takeEntries_keeps (i delta : Nat) (s : State) :
    SameCore (takeEntries i delta s) s ∧ (takeEntries i delta s).field = s.field ∧
    (takeEntries i delta s).clock = s.clock ∧ (takeEntries i delta s).stations = s.stations ∧
    (takeEntries i delta s).passes = s.passes ∧ (takeEntries i delta s).tokens = s.tokens ∧
    (takeEntries i delta s).holds = s.holds ∧ (takeEntries i delta s).nextId = s.nextId ∧
    (takeEntries i delta s).expiredIds = s.expiredIds := by
  unfold takeEntries; dsimp only; split <;> simp [SameCore]

@[simp] theorem takeBoardings_keeps (i delta : Nat) (s : State) :
    SameCore (takeBoardings i delta s) s ∧ (takeBoardings i delta s).clock = s.clock ∧
    (takeBoardings i delta s).stations = s.stations ∧ (takeBoardings i delta s).passes = s.passes ∧
    (takeBoardings i delta s).tokens = s.tokens ∧ (takeBoardings i delta s).holds = s.holds ∧
    (takeBoardings i delta s).nextId = s.nextId ∧ (takeBoardings i delta s).expiredIds = s.expiredIds := by
  unfold takeBoardings; dsimp only; split <;> simp [SameCore]

@[simp] theorem setBaseline_keeps (number new : Nat) (s : State) :
    SameCore (setBaseline number new s) s ∧ (setBaseline number new s).reportQueue = s.reportQueue ∧
    (setBaseline number new s).counters = s.counters ∧ (setBaseline number new s).field = s.field ∧
    (setBaseline number new s).park = s.park ∧ (setBaseline number new s).clock = s.clock ∧
    (setBaseline number new s).rides = s.rides ∧ (setBaseline number new s).passes = s.passes ∧
    (setBaseline number new s).tokens = s.tokens ∧ (setBaseline number new s).holds = s.holds ∧
    (setBaseline number new s).nextId = s.nextId ∧ (setBaseline number new s).expiredIds = s.expiredIds := by
  unfold setBaseline; split <;> simp [SameCore]

@[simp] theorem takeDelta_keeps (number : Nat) (role : Role) (i delta new : Nat) (s : State) :
    SameCore (takeDelta number role i delta new s) s ∧ (takeDelta number role i delta new s).clock = s.clock ∧
    (takeDelta number role i delta new s).stations = s.stations ∧
    (takeDelta number role i delta new s).passes = s.passes ∧
    (takeDelta number role i delta new s).tokens = s.tokens ∧ (takeDelta number role i delta new s).holds = s.holds ∧
    (takeDelta number role i delta new s).nextId = s.nextId ∧
    (takeDelta number role i delta new s).expiredIds = s.expiredIds := by
  unfold takeDelta; (repeat' split) <;> simp [SameCore]

@[simp] theorem takeCount_keeps (number : Nat) (st : Station) (new : Nat) (s : State) :
    SameCore (takeCount number st new s) s ∧ (takeCount number st new s).clock = s.clock ∧
    (takeCount number st new s).passes = s.passes ∧ (takeCount number st new s).tokens = s.tokens ∧
    (takeCount number st new s).holds = s.holds ∧ (takeCount number st new s).nextId = s.nextId ∧
    (takeCount number st new s).expiredIds = s.expiredIds := by
  unfold takeCount; dsimp only; (repeat' split) <;> simp [SameCore]

@[simp] theorem takeDispatch_keeps (i offered filled : Nat) (s : State) :
    SameCore (takeDispatch i offered filled s) s ∧ (takeDispatch i offered filled s).reportQueue = s.reportQueue ∧
    (takeDispatch i offered filled s).field = s.field ∧ (takeDispatch i offered filled s).park = s.park ∧
    (takeDispatch i offered filled s).clock = s.clock ∧ (takeDispatch i offered filled s).stations = s.stations ∧
    (takeDispatch i offered filled s).passes = s.passes ∧ (takeDispatch i offered filled s).tokens = s.tokens ∧
    (takeDispatch i offered filled s).holds = s.holds ∧ (takeDispatch i offered filled s).nextId = s.nextId ∧
    (takeDispatch i offered filled s).expiredIds = s.expiredIds := by
  unfold takeDispatch; dsimp only; (repeat' split) <;> simp [SameCore]

@[simp] theorem configureRide_keeps (i : Nat) (c : RideCfg) (s : State) :
    SameCore (configureRide i c s) s ∧ (configureRide i c s).reportQueue = s.reportQueue ∧
    (configureRide i c s).counters = s.counters ∧ (configureRide i c s).field = s.field ∧
    (configureRide i c s).park = s.park ∧ (configureRide i c s).clock = s.clock ∧
    (configureRide i c s).stations = s.stations ∧ (configureRide i c s).passes = s.passes ∧
    (configureRide i c s).tokens = s.tokens ∧ (configureRide i c s).holds = s.holds ∧
    (configureRide i c s).nextId = s.nextId ∧ (configureRide i c s).expiredIds = s.expiredIds := by
  unfold configureRide; dsimp only; split <;> simp [SameCore]

@[simp] theorem calendarReconfigured_keeps (i : Nat) (old new : RideCfg) (oldRate newRate : Nat) (s : State) :
    SameCore (calendarReconfigured i old new oldRate newRate s) s ∧
    (calendarReconfigured i old new oldRate newRate s).reportQueue = s.reportQueue ∧
    (calendarReconfigured i old new oldRate newRate s).counters = s.counters ∧
    (calendarReconfigured i old new oldRate newRate s).field = s.field ∧
    (calendarReconfigured i old new oldRate newRate s).park = s.park ∧
    (calendarReconfigured i old new oldRate newRate s).clock = s.clock ∧
    (calendarReconfigured i old new oldRate newRate s).stations = s.stations ∧
    (calendarReconfigured i old new oldRate newRate s).passes = s.passes ∧
    (calendarReconfigured i old new oldRate newRate s).tokens = s.tokens ∧
    (calendarReconfigured i old new oldRate newRate s).holds = s.holds ∧
    (calendarReconfigured i old new oldRate newRate s).nextId = s.nextId ∧
    (calendarReconfigured i old new oldRate newRate s).expiredIds = s.expiredIds := by
  unfold calendarReconfigured; (repeat' split) <;> simp [SameCore]

@[simp] theorem laneReconfigured_keeps (i : Nat) (old new : RideCfg) (s : State) :
    SameCore (laneReconfigured i old new s) s ∧ (laneReconfigured i old new s).reportQueue = s.reportQueue ∧
    (laneReconfigured i old new s).clock = s.clock ∧ (laneReconfigured i old new s).stations = s.stations ∧
    (laneReconfigured i old new s).passes = s.passes ∧ (laneReconfigured i old new s).tokens = s.tokens ∧
    (laneReconfigured i old new s).holds = s.holds ∧ (laneReconfigured i old new s).nextId = s.nextId ∧
    (laneReconfigured i old new s).expiredIds = s.expiredIds := by
  unfold laneReconfigured; split <;> simp [SameCore]

@[simp] theorem reconfigureRide_keeps (i : Nat) (old new : RideCfg) (s : State) :
    SameCore (reconfigureRide i old new s) s ∧ (reconfigureRide i old new s).reportQueue = s.reportQueue ∧
    (reconfigureRide i old new s).clock = s.clock ∧ (reconfigureRide i old new s).stations = s.stations ∧
    (reconfigureRide i old new s).passes = s.passes ∧ (reconfigureRide i old new s).tokens = s.tokens ∧
    (reconfigureRide i old new s).holds = s.holds ∧ (reconfigureRide i old new s).nextId = s.nextId ∧
    (reconfigureRide i old new s).expiredIds = s.expiredIds := by
  simp [SameCore, reconfigureRide]

@[simp] theorem storeRideCfg_keeps (i : Nat) (c : RideCfg) (s : State) :
    SameCore (storeRideCfg i c s) s ∧ (storeRideCfg i c s).reportQueue = s.reportQueue ∧
    (storeRideCfg i c s).clock = s.clock ∧ (storeRideCfg i c s).stations = s.stations ∧
    (storeRideCfg i c s).passes = s.passes ∧ (storeRideCfg i c s).tokens = s.tokens ∧
    (storeRideCfg i c s).holds = s.holds ∧ (storeRideCfg i c s).nextId = s.nextId ∧
    (storeRideCfg i c s).expiredIds = s.expiredIds := by
  unfold storeRideCfg; split <;> simp [SameCore]

@[simp] theorem classChanged_keeps (i : Nat) (s : State) :
    SameCore (classChanged i s) s ∧ (classChanged i s).reportQueue = s.reportQueue ∧
    (classChanged i s).counters = s.counters ∧ (classChanged i s).field = s.field ∧
    (classChanged i s).park = s.park ∧ (classChanged i s).clock = s.clock ∧
    (classChanged i s).stations = s.stations ∧ (classChanged i s).passes = s.passes ∧
    (classChanged i s).tokens = s.tokens ∧ (classChanged i s).holds = s.holds ∧
    (classChanged i s).nextId = s.nextId ∧ (classChanged i s).expiredIds = s.expiredIds := by
  simp [SameCore, classChanged]

@[simp] theorem storeClassRate_keeps (classNo rate : Nat) (s : State) :
    (storeClassRate classNo rate s).pending = s.pending ∧ (storeClassRate classNo rate s).resetHeld = s.resetHeld ∧
    (storeClassRate classNo rate s).straps = s.straps ∧ (storeClassRate classNo rate s).device = s.device ∧
    (storeClassRate classNo rate s).purgeCursor = s.purgeCursor ∧
    (storeClassRate classNo rate s).settings = s.settings ∧
    (storeClassRate classNo rate s).reportMask = s.reportMask ∧
    (storeClassRate classNo rate s).reportQueue = s.reportQueue ∧
    (storeClassRate classNo rate s).counters = s.counters ∧ (storeClassRate classNo rate s).field = s.field ∧
    (storeClassRate classNo rate s).park = s.park ∧ (storeClassRate classNo rate s).clock = s.clock ∧
    (storeClassRate classNo rate s).stations = s.stations ∧ (storeClassRate classNo rate s).passes = s.passes ∧
    (storeClassRate classNo rate s).tokens = s.tokens ∧ (storeClassRate classNo rate s).holds = s.holds ∧
    (storeClassRate classNo rate s).nextId = s.nextId ∧ (storeClassRate classNo rate s).expiredIds = s.expiredIds ∧
    (storeClassRate classNo rate s).boards = s.boards ∧ (storeClassRate classNo rate s).symbols = s.symbols := by
  unfold storeClassRate; split
  · simp
  · refine foldl_induct (P := fun t =>
    t.pending = s.pending ∧ t.resetHeld = s.resetHeld ∧ t.straps = s.straps ∧ t.device = s.device ∧
    t.purgeCursor = s.purgeCursor ∧ t.settings = s.settings ∧ t.reportMask = s.reportMask ∧
    t.reportQueue = s.reportQueue ∧ t.counters = s.counters ∧ t.field = s.field ∧ t.park = s.park ∧
    t.clock = s.clock ∧ t.stations = s.stations ∧ t.passes = s.passes ∧ t.tokens = s.tokens ∧ t.holds = s.holds ∧
    t.nextId = s.nextId ∧ t.expiredIds = s.expiredIds ∧ t.boards = s.boards ∧ t.symbols = s.symbols) ?_ ?_
    · simp
    · intro t e h; split <;> simpa [SameCore] using h

end Sys2Proof.Machine
end

