-- ==== Sys2Proof/Laws/Arrivals.lean ====
section
/-! SUPPORT. One lemma for each kind of arrival, in the vocabulary of the obligations: an accepted field frame and a
management command run as their rules say; what reports and releases leave alone; and silence handed on. -/

namespace Sys2Proof.Machine

open Sys2Proof.Claims

/-! ## Management commands -/

/-- A consumed command runs the unit on its parameter bytes and places one answer (R8, R174). -/
theorem mgmt_run (code : Byte) (run : Command) (rx : MgmtRx) (s : State) (h : Commanded rx s) :
    mgmtStep code run rx s =
      .next (replied code.toNat rx (run (params rx) s).2 (run (params rx) s).1) := by
  obtain ⟨⟨hr, hl⟩, hp, hlong, hd, ⟨he1, he2⟩, hb⟩ := h
  have hpl : (portUnit rx.port s).linkUp = true := by rw [hp]; exact hl
  obtain ⟨n, hn⟩ : ∃ n, rx.bodyLen.toNat = n + 1 := ⟨rx.bodyLen.toNat - 1, by omega⟩
  have hle : Config.minFrame ≤ Config.frameOverhead + linePayloadLength (mgmtLine code rx) := by
    simp only [LongEnough] at hlong
    simp [Config.minFrame, Config.frameOverhead, linePayloadLength, mgmtLine]; omega
  have hdrop : ((bodyOf (mgmtLine code rx)).drop 3) = params rx := by
    simp [bodyOf, mgmtLine, params, hn]
  have htag : u16At (bodyOf (mgmtLine code rx)) 1 = u16At rx.tail 0 := by
    have h2 : 2 ≤ n := by omega
    obtain ⟨m, rfl⟩ : ∃ m, n = m + 2 := ⟨n - 2, by omega⟩
    simp only [bodyOf, mgmtLine, hn, u16At, u8At, List.take_succ_cons, List.getD_cons_succ, Nat.reduceAdd]
    congr 2
    · congr 1
      rcases rx.tail with _ | ⟨a, _ | ⟨b, t⟩⟩ <;> simp
    · rcases rx.tail with _ | ⟨a, _ | ⟨b, t⟩⟩ <;> simp
  have he3 : rx.bodyLen.toNat ≤ rx.tail.length + 1 := by omega
  have harr : arriveMgmt code run rx s =
      placeOrigin .park (answerFrame (mgmtLine code rx) (.mgmtAnswer code.toNat (u16At (bodyOf (mgmtLine code rx)) 1)
        (run ((bodyOf (mgmtLine code rx)).drop 3) s).2) (run ((bodyOf (mgmtLine code rx)).drop 3) s).1)
        (run ((bodyOf (mgmtLine code rx)).drop 3) s).1 := by
    unfold arriveMgmt
    rw [if_neg (by simpa [destOf, mgmtLine] using hd), hp]
    simp [envelopeOk, mgmtLine, Config.maxBody, he1, he3, hb]
  have hrec : receives rx.port (linePayloadLength (mgmtLine code rx)) s = true := by
    simp [receives, hr, hpl, longEnough, hle]
  rw [mgmtStep, onArrival, hrec, if_pos rfl, harr, hdrop, htag]
  rfl

/-! ## Field frames -/

/-- A field frame that reaches R6 is received and does not pass through. -/
theorem judged_receives (rx : LineRx) (s : State) (h : Judged rx s) :
    receives rx.port (linePayloadLength rx) s = true ∧ passesThrough rx s = false := by
  obtain ⟨⟨hr, hl⟩, hp, hlong, hd⟩ := h
  have hle : Config.minFrame ≤ Config.frameOverhead + linePayloadLength rx := by
    simpa [Config.minFrame, Config.frameOverhead, linePayloadLength] using hlong
  simp [receives, hr, hp, hl, longEnough, hle, passesThrough, hd]

/-- R6 from its third step on, for a frame of a known station. -/
theorem judge_known (roles : List Role) (bodyOk : List Byte → Bool) (rx : LineRx) (s : State) (st : Station)
    (he : EnvelopeFits rx) (hk : tblGet s.stations rx.source.toNat = some st) :
    judge roles bodyOk rx s =
      if st.role ∈ roles then if bodyOk (bodyOf rx) then .ok st else .error .malformed else .error .roleMismatch := by
  simp [judge, envelopeOk, Config.maxBody, he.1, he.2, sourceOf, hk]

/-- An accepted observed frame: supervision, effect, then the frame goes on (R7). -/
theorem observe_run (kind : Byte) (roles : List Role) (bodyOk : List Byte → Bool)
    (effect : Station → State → State)
    (rx : LineRx) (s : State) (st : Station) (hj : Judged rx s)
    (he : EnvelopeFits rx) (hk : tblGet s.stations rx.source.toNat = some st) (hr : st.role ∈ roles)
    (hb : bodyOk (bodyOf rx) = true) :
    onArrival rx.port (linePayloadLength rx) (observe kind roles bodyOk effect rx) s =
      .next (placeTransit .park (lineFrame kind rx) (effect st (heardState rx st s))) := by
  have h1 := judged_receives rx s hj
  rw [onArrival, if_pos h1.1]
  simp [observe, h1.2, judge_known roles bodyOk rx s st he hk, hr, hb, forwardFrom, hj.onField, otherPort,
    sourceOf]

/-- An accepted consumed frame: supervision, then the effect (R7). -/
theorem consume_run (kind : Byte) (roles : List Role) (bodyOk : List Byte → Bool)
    (effect : Station → State → State)
    (rx : LineRx) (s : State) (st : Station) (hj : Judged rx s)
    (he : EnvelopeFits rx) (hk : tblGet s.stations rx.source.toNat = some st) (hr : st.role ∈ roles)
    (hb : bodyOk (bodyOf rx) = true) :
    onArrival rx.port (linePayloadLength rx) (consume kind roles bodyOk effect rx) s =
      .next (effect st (heardState rx st s)) := by
  have h1 := judged_receives rx s hj
  simp [onArrival, h1, consume, judge_known roles bodyOk rx s st he hk, hr, hb, sourceOf]

/-- The body check of COUNT is the row of Table 1-2. -/
theorem count_fits (b : List Byte) : countBodyOk b = true ↔ countRow.fits b := by simp [countBodyOk, countRow]

/-- The body check of DISPATCH is the row of Table 1-2. -/
theorem dispatch_fits (b : List Byte) : dispatchBodyOk b = true ↔ dispatchRow.fits b := by
  simp [dispatchBodyOk, dispatchRow]

/-- The body check of RIDESTATE is the row of Table 1-2. -/
theorem rideState_fits (b : List Byte) : rideStateBodyOk b = true ↔ rideStateRow.fits b := by
  simp [rideStateBodyOk, rideStateRow]

/-- The body check of RELEASED is the row of Table 1-2. -/
theorem released_fits (b : List Byte) : releasedBodyOk b = true ↔ releasedRow.fits b := by
  simp [releasedBodyOk, releasedRow]

/-- The body check of PASSREQ is the row of Table 1-2. -/
theorem passReq_fits (b : List Byte) : passReqBodyOk b = true ↔ passReqRow.fits b := by
  simp [passReqBodyOk, passReqRow, tokenBodyOk]; omega

/-- The body check of TAKE is the row of Table 1-2. -/
theorem take_fits (b : List Byte) : takeBodyOk b = true ↔ takeRow.fits b := by
  simp [takeBodyOk, takeRow, tokenBodyOk]; omega

/-- The body check of DROP is the row of Table 1-2. -/
theorem drop_fits (b : List Byte) : dropBodyOk b = true ↔ dropRow.fits b := by simp [dropBodyOk, dropRow]

/-- The body check of CANCEL is the row of Table 1-2. -/
theorem cancel_fits (b : List Byte) : cancelBodyOk b = true ↔ cancelRow.fits b := by
  simp [cancelBodyOk, cancelRow, tokenBodyOk]; omega

/-- The body check of REDEEM is the row of Table 1-2. -/
theorem redeem_fits (b : List Byte) : redeemBodyOk b = true ↔ redeemRow.fits b := by
  simp [redeemBodyOk, redeemRow, tokenBodyOk]; omega

variable {rx : LineRx} {s : State} {st : Station}

/-- An accepted COUNT. -/
theorem run_count (h : Accepted countRow rx s st) : exec (.count rx) s =
    .next (passedOn countRow rx (takeCount rx.source.toNat st (u16At (bodyOf rx) 0) (heardState rx st s))) :=
  observe_run 0x01 _ _ _ rx s st h.judged h.envelope h.known h.role ((count_fits _).2 h.body)

/-- An accepted DISPATCH. -/
theorem run_dispatch (h : Accepted dispatchRow rx s st) : exec (.dispatch rx) s =
    .next (passedOn dispatchRow rx (dispatchEffect rx st (heardState rx st s))) :=
  observe_run 0x02 _ _ _ rx s st h.judged h.envelope h.known h.role ((dispatch_fits _).2 h.body)

/-- An accepted RIDESTATE. -/
theorem run_rideState (h : Accepted rideStateRow rx s st) : exec (.rideState rx) s =
    .next (passedOn rideStateRow rx (rideStateEffect rx st (heardState rx st s))) :=
  observe_run 0x03 _ _ _ rx s st h.judged h.envelope h.known h.role ((rideState_fits _).2 h.body)

/-- An accepted RELEASED. -/
theorem run_released (h : Accepted releasedRow rx s st) : exec (.released rx) s =
    .next (passedOn releasedRow rx (releasedEffect rx st (heardState rx st s))) :=
  observe_run 0x04 _ _ _ rx s st h.judged h.envelope h.known h.role ((released_fits _).2 h.body)

/-- An accepted PASSREQ. -/
theorem run_passReq (h : Accepted passReqRow rx s st) : exec (.passReq rx) s =
    .next (takePassReq rx (heardState rx st s)) :=
  consume_run 0x10 _ _ _ rx s st h.judged h.envelope h.known h.role ((passReq_fits _).2 h.body)

/-- An accepted TAKE. -/
theorem run_take (h : Accepted takeRow rx s st) : exec (.take rx) s =
    .next (acceptTake rx (heardState rx st s)) :=
  consume_run 0x11 _ _ _ rx s st h.judged h.envelope h.known h.role ((take_fits _).2 h.body)

/-- An accepted DROP. -/
theorem run_drop (h : Accepted dropRow rx s st) : exec (.drop rx) s =
    .next (acceptDrop rx (heardState rx st s)) :=
  consume_run 0x12 _ _ _ rx s st h.judged h.envelope h.known h.role ((drop_fits _).2 h.body)

/-- An accepted CANCEL. -/
theorem run_cancel (h : Accepted cancelRow rx s st) : exec (.cancel rx) s =
    .next (acceptCancel rx (heardState rx st s)) :=
  consume_run 0x13 _ _ _ rx s st h.judged h.envelope h.known h.role ((cancel_fits _).2 h.body)

/-- An accepted REDEEM. -/
theorem run_redeem (h : Accepted redeemRow rx s st) : exec (.redeem rx) s =
    .next (redeemEffect rx st (heardState rx st s)) :=
  consume_run 0x14 _ _ _ rx s st h.judged h.envelope h.known h.role ((redeem_fits _).2 h.body)

/-- A well-formed TIME frame that the park clock sees (R9). -/
theorem run_time {v : Nat} (h : TimeFrame rx s v) : exec (.time rx) s = .next (timePassedOn rx (takeTime v s)) := by
  obtain ⟨⟨hr, hl⟩, hp, hlong, hd, he, hb, hv, hi⟩ := h
  have hrec : receives rx.port (linePayloadLength rx) s = true := by
    rw [hp]; simp only [receives, hr, hl, longEnough, linePayloadLength, Config.minFrame, Config.frameOverhead]
    unfold LongEnough at hlong; simp [hlong]
  have h1 : parkPassesThrough rx s = false := by simp [parkPassesThrough, hp, hd]
  have h2 : (envelopeOk rx && timeBodyOk (bodyOf rx)) = true := by
    simp [envelopeOk, Config.maxBody, he.1, he.2, timeBodyOk, hb, hv, Config.maxDaySecond, hi]
  show onArrival _ _ _ _ = _
  rw [onArrival, hrec, if_pos rfl, arriveTime]
  simp only [h1, h2, hv, hp]
  rfl

/-! ## Reports and releases -/

/-- Two states are equal field by field. -/
theorem state_eq {s t : State} (h1 : s.pending = t.pending) (h2 : s.resetHeld = t.resetHeld) (h3 : s.straps = t.straps)
    (h4 : s.device = t.device) (h5 : s.purgeCursor = t.purgeCursor) (h6 : s.settings = t.settings)
    (h7 : s.reportMask = t.reportMask) (h8 : s.reportQueue = t.reportQueue) (h9 : s.counters = t.counters)
    (h10 : s.field = t.field) (h11 : s.park = t.park) (h12 : s.clock = t.clock) (h13 : s.stations = t.stations)
    (h14 : s.classes = t.classes) (h15 : s.rides = t.rides) (h16 : s.passes = t.passes) (h17 : s.tokens = t.tokens)
    (h18 : s.holds = t.holds) (h19 : s.nextId = t.nextId) (h20 : s.expiredIds = t.expiredIds)
    (h21 : s.boards = t.boards) (h22 : s.symbols = t.symbols) : s = t := by
  cases s; cases t; simp_all

/-- Reports go to the park port. -/
@[simp] theorem moveReportsFrom_field (w : List Report) (s : State) : (moveReportsFrom w s).field = s.field := by
  induction w generalizing s with
  | nil => rfl
  | cons r rest ih =>
    unfold moveReportsFrom
    split
    · rw [ih]; simp
    · rfl

/-- Reports go to the park port. -/
@[simp] theorem moveReports_field (s : State) : (moveReports s).field = s.field := by simp [moveReports]

/-- Reports go to the park port. -/
@[simp] theorem report_field (k : ReportKind) (a b : Nat) (s : State) : (report k a b s).field = s.field := by
  unfold report; (repeat' split) <;> simp

/-- A RELEASE goes to the field port. -/
@[simp] theorem testRelease_park (i : Nat) (s : State) : (testRelease i s).park = s.park := by
  unfold testRelease; split <;> simp [sendRelease, updLane]

/-- What moving reports does to the park port depends on that port, the straps and the reports. -/
theorem moveReportsFrom_park_congr (w : List Report) (s t : State) (hp : s.park = t.park) (hs : s.straps = t.straps) :
    (moveReportsFrom w s).park = (moveReportsFrom w t).park ∧
      (moveReportsFrom w s).reportQueue = (moveReportsFrom w t).reportQueue := by
  induction w generalizing s t with
  | nil => exact ⟨hp, rfl⟩
  | cons r rest ih =>
    unfold moveReportsFrom
    rw [hp]
    split
    · apply ih
      · have : broadcastFrame Config.allStations (.report r) s = broadcastFrame Config.allStations (.report r) t := by
          simp [broadcastFrame, ownStation, hs]
        rw [this]
        unfold placeOrigin
        have hr : originRoom .park s = originRoom .park t := by
          have : portUnit .park s = portUnit .park t := hp
          simp only [originRoom, this]
        rw [hr]; split <;> simp [setPort, portUnit, hp]
      · simp [hs]
    · exact ⟨rfl, rfl⟩

/-- A report is made from the mask, the report queue, park time, the park port, the counters and the straps alone. -/
theorem report_congr (k : ReportKind) (a b : Nat) (s t : State) (hp : s.park = t.park)
    (hs : s.straps = t.straps) (hm : s.reportMask = t.reportMask) (hq : s.reportQueue = t.reportQueue)
    (hc : s.clock.parkTime = t.clock.parkTime) :
    (report k a b s).park = (report k a b t).park ∧ (report k a b s).reportQueue = (report k a b t).reportQueue := by
  unfold report
  rw [hm, hq, hc]
  split
  · exact ⟨hp, hq⟩
  · split
    · exact moveReportsFrom_park_congr _ _ _ hp hs
    · exact ⟨hp, hq⟩

/-- All that testing the release condition does to a ride. -/
theorem rideAt_testRelease (i j : Nat) (s : State) :
    rideAt j (testRelease i s) = { rideAt j s with lane := (rideAt j (testRelease i s)).lane } ∧
    (rideAt j (testRelease i s)).lane.occupancy = (rideAt j s).lane.occupancy ∧
    (rideAt j (testRelease i s)).lane.gateSilence = (rideAt j s).lane.gateSilence ∧
    (j ≠ i → rideAt j (testRelease i s) = rideAt j s) := by
  unfold testRelease
  split
  · unfold sendRelease updLane
    by_cases h : j = i
    · subst h
      rw [rideAt_updRide]
      split
      · simp [rideAt_congr j s (placeOrigin _ _ s) (by simp)]
      · simp [rideAt_congr j s (placeOrigin _ _ s) (by simp)]
    · simp [h, rideAt_congr j s (placeOrigin _ _ s) (by simp)]
  · simp

/-- A report changes no ride. -/
@[simp] theorem rideAt_report (k : ReportKind) (a b j : Nat) (s : State) : rideAt j (report k a b s) = rideAt j s :=
  rideAt_congr _ _ _ (by simp)

/-- Supervision of a station that is bound to no ride changes no ride. -/
@[simp] theorem rideAt_hear (h : rideBound st.role = false) (n : Nat) (s : State) :
    rideAt j (hear n st s) = rideAt j s := by
  apply rideAt_congr; unfold hear; split <;> simp [syncStation, h]

/-! ## Silence -/

/-- Two ride records differ in the estimate, NO_CONTROL and the return lane alone. -/
abbrev SameBut (a b : Ride) : Prop :=
  b = { a with noControl := b.noControl, est := b.est, lane := b.lane }

/-- Changes that reach those alone, one after the other. -/
theorem SameBut.trans {a b c : Ride} (h : SameBut a b) (h' : SameBut b c) : SameBut a c := by
  unfold SameBut at *; rw [h', h]

/-- A recomputation of silence conditions reaches the estimate, NO_CONTROL and the return lane alone (R16). -/
theorem rideAt_syncSilence (i j : Nat) (s : State) : SameBut (rideAt j s) (rideAt j (syncSilence i s)) := by
  have h1 : ∀ s, SameBut (rideAt j s) (rideAt j (syncCounterSilence i s)) := by
    intro s; unfold syncCounterSilence; split
    · rfl
    · rw [rideAt_updRide]; split
      · rename_i h; rw [h.1, setStale]; split
        · rfl
        · rw [postingRun_is]
      · rfl
  have h2 : ∀ s, SameBut (rideAt j s) (rideAt j (syncControlSilence i s)) := by
    intro s; unfold syncControlSilence; split
    · rfl
    · rw [rideAt_updRide]; split
      · rename_i h; rw [h.1]
      · rfl
  have h3 : ∀ s, SameBut (rideAt j s) (rideAt j (syncGateSilence i s)) := by
    intro s; unfold syncGateSilence; split
    · rfl
    · have h4 : ∀ f, SameBut (rideAt j s) (rideAt j (updLane i f s)) := by
        intro f; unfold updLane; rw [rideAt_updRide]; split
        · rename_i h; rw [h.1]
        · rfl
      unfold setGateSilence; split
      · exact h4 _
      · refine (h4 (fun l => { l with gateSilence := gateSilence i s })).trans ?_
        have := (rideAt_testRelease i j (updLane i (fun l => { l with gateSilence := gateSilence i s }) s)).1
        unfold SameBut; rw [this]
  exact ((h1 s).trans (h2 _)).trans (h3 _)

/-- An accepted frame reaches a ride's estimate, NO_CONTROL and return lane alone (R13, R16). -/
theorem rideAt_hear_is (n j : Nat) (st : Station) (s : State) : SameBut (rideAt j s) (rideAt j (hear n st s)) := by
  unfold hear
  dsimp only
  split
  · unfold syncStation
    split
    · split
      · refine SameBut.trans ?_ (rideAt_syncSilence _ _ _)
        rw [rideAt_report]; rfl
      · rw [rideAt_report]; rfl
    · rw [rideAt_report]; rfl
  · rfl

/-- A recomputation hands every silence condition of the ride on (R16). -/
theorem syncSilence_handsOn (i : Nat) (s : State) (h : i < s.rides.length) : SilenceHandedOn i (syncSilence i s) := by
  have e : (syncSilence i s).stations = s.stations := by simp
  simp only [SilenceHandedOn, counterSilence, controlSilence, gateSilence, e]
  have hc : (rideAt i (syncCounterSilence i s)).est.stale = counterSilence i s := by
    unfold syncCounterSilence; split
    · assumption
    · simp only [rideAt_updRide_same _ _ _ h, setStale]
      cases counterSilence i s
      · rw [if_neg (by simp), postingRun_is]
      · rfl
  have l1 : i < (syncCounterSilence i s).rides.length := by unfold syncCounterSilence; split <;> simp [h]
  generalize hs1 : syncCounterSilence i s = s1 at *
  have e1 : s1.stations = s.stations := by rw [← hs1]; simp
  have hk : (rideAt i (syncControlSilence i s1)).noControl = controlSilence i s1 ∧
      (rideAt i (syncControlSilence i s1)).est = (rideAt i s1).est := by
    unfold syncControlSilence; split
    · exact ⟨by assumption, rfl⟩
    · simp [l1]
  have l2 : i < (syncControlSilence i s1).rides.length := by unfold syncControlSilence; split <;> simp [l1]
  simp only [syncSilence, hs1]
  generalize hs2 : syncControlSilence i s1 = s2 at *
  have e2 : s2.stations = s.stations := by rw [← hs2]; simp [e1]
  have hg : (rideAt i (syncGateSilence i s2)).lane.gateSilence = gateSilence i s2 ∧
      (rideAt i (syncGateSilence i s2)).est = (rideAt i s2).est ∧
      (rideAt i (syncGateSilence i s2)).noControl = (rideAt i s2).noControl := by
    unfold syncGateSilence; split
    · exact ⟨by assumption, rfl, rfl⟩
    · simp only [setGateSilence]
      split
      · simp [updLane, *]
      · obtain ⟨t1, -, t3, -⟩ :=
          rideAt_testRelease i i (updLane i (fun l => { l with gateSilence := gateSilence i s2 }) s2)
        rw [t3, t1]
        simp [updLane, l2]
  simp only [hg, hk, hc]
  simp [counterSilence, controlSilence, gateSilence, e1, e2]

/-- All that a LOAD_STATION leaves as it was, and the record it stores (R10, R11). -/
@[simp] theorem storeStation_keeps (n : Nat) (st : Station) (s : State) :
    SameCore (storeStation n st s) s ∧ (storeStation n st s).clock = s.clock ∧
    (storeStation n st s).stations = tblSet s.stations n st ∧ (storeStation n st s).passes = s.passes ∧
    (storeStation n st s).tokens = s.tokens ∧ (storeStation n st s).holds = s.holds ∧
    (storeStation n st s).nextId = s.nextId ∧ (storeStation n st s).expiredIds = s.expiredIds := by
  simp [SameCore, storeStation, putStation, tblSet_tblSet]

/-- A stored record that is not SILENT counts in no silence, bound or not (R11). -/
theorem storeStation_silent (roles : List Role) (i n : Nat) (st : Station) (h : st.supervision ≠ .silent) (s : State) :
    (storeStation n st s).stations.any (fun e => silentFor roles i e.2) =
      (putStation n { st with binding := none } s).stations.any (fun e => silentFor roles i e.2) := by
  rw [(storeStation_keeps n st s).2.2.1]
  apply any_tblSet_congr
  simp [silentFor, h]

end Sys2Proof.Machine
end

