-- ==== Sys2Proof/Laws/Minutes.lean ====
section
/-! SUPPORT. The minute events and what a report or a minute event reads of the state: reports commute with the clock,
the calendar works ride by ride, and the pass book reads no ring. -/

namespace Sys2Proof.Machine

/-! ## Reports and the clock -/

/-- Placing a frame does not read the clock. -/
theorem placeOrigin_clock (f : OriginFrame) (s : State) (c : Clock) :
    placeOrigin .park f { s with clock := c } = { placeOrigin .park f s with clock := c } := by
  unfold placeOrigin
  have h : originRoom .park { s with clock := c } = originRoom .park s := rfl
  rw [h]; split <;> rfl

/-- Moving reports does not read the clock. -/
theorem moveReportsFrom_clock (w : List Report) (s : State) (c : Clock) :
    moveReportsFrom w { s with clock := c } = { moveReportsFrom w s with clock := c } := by
  induction w generalizing s with
  | nil => rfl
  | cons r rest ih =>
    unfold moveReportsFrom
    by_cases h : s.park.origin.length < Config.reportMark
    · simp only [h, if_true]
      rw [← ih, ← placeOrigin_clock]; rfl
    · simp only [h, if_false]

/-- A report reads park time alone of the clock (R26). -/
theorem report_clock (k : ReportKind) (a b : Nat) (s : State) (c : Clock) (h : c.parkTime = s.clock.parkTime) :
    report k a b { s with clock := c } = { report k a b s with clock := c } := by
  unfold report
  by_cases h1 : reportLevel k < s.reportMask
  · simp only [h1, if_true]
  · by_cases h2 : s.reportQueue.length < Config.reportPlaces
    · simp only [h1, h2, if_true, if_false, moveReports, h]
      rw [← moveReportsFrom_clock]
    · simp only [h1, h2, if_false]; rfl

/-! ## Reports and the ride records -/

/-- Placing a frame does not read the ride records. -/
theorem placeOrigin_rides (p : Port) (f : OriginFrame) (s : State) (l : List Ride) :
    placeOrigin p f { s with rides := l } = { placeOrigin p f s with rides := l } := by
  unfold placeOrigin
  have h : originRoom p { s with rides := l } = originRoom p s := rfl
  rw [h]; split <;> cases p <;> rfl

/-- Moving reports does not read the ride records. -/
theorem moveReportsFrom_rides (w : List Report) (s : State) (l : List Ride) :
    moveReportsFrom w { s with rides := l } = { moveReportsFrom w s with rides := l } := by
  induction w generalizing s with
  | nil => rfl
  | cons r rest ih =>
    unfold moveReportsFrom
    by_cases h : s.park.origin.length < Config.reportMark
    · simp only [h, if_true]
      rw [← ih, ← placeOrigin_rides]; rfl
    · simp only [h, if_false]

/-- A report does not read the ride records. -/
theorem report_rides (k : ReportKind) (a b : Nat) (s : State) (l : List Ride) :
    report k a b { s with rides := l } = { report k a b s with rides := l } := by
  unfold report
  by_cases h1 : reportLevel k < s.reportMask
  · simp only [h1, if_true]
  · by_cases h2 : s.reportQueue.length < Config.reportPlaces
    · simp only [h1, h2, if_true, if_false, moveReports]
      rw [← moveReportsFrom_rides]
    · simp only [h1, h2, if_false]; rfl

/-- A report made after a ride record is written is one made before it. -/
theorem report_setRide (k : ReportKind) (a b i : Nat) (r : Ride) (s : State) :
    report k a b (setRide i r s) = setRide i r (report k a b s) := by
  unfold setRide; rw [report_rides]; simp

/-- The same of a change of a ride record. -/
theorem report_updRide (k : ReportKind) (a b i : Nat) (f : Ride → Ride) (s : State) :
    report k a b (updRide i f s) = updRide i f (report k a b s) := by
  unfold updRide
  rw [report_setRide, rideAt_report]

/-- A record written where it stands already changes nothing. -/
theorem setRide_rideAt (i : Nat) (s : State) : setRide i (rideAt i s) s = s := by
  unfold setRide rideAt
  have : s.rides.set i (s.rides.getD i Ride.reset) = s.rides := by
    apply List.ext_getElem? ; intro j
    rw [List.getElem?_set]
    split
    · subst_vars; split
      · simp [List.getD_eq_getElem?_getD, *]
      · simp_all
    · rfl
  rw [this]

/-! ## What a report reads and writes -/

/-- Two states agree in what a report reads and writes. -/
abbrev SameOut (s t : State) : Prop :=
  s.park = t.park ∧ s.reportQueue = t.reportQueue ∧ s.counters = t.counters ∧ s.straps = t.straps ∧
    s.reportMask = t.reportMask ∧ s.clock.parkTime = t.clock.parkTime

/-- Placing a frame on the park port. -/
theorem placeOrigin_out (f : OriginFrame) (s t : State) (h : SameOut s t) :
    SameOut (placeOrigin .park f s) (placeOrigin .park f t) := by
  obtain ⟨a, b, c, d, e, g⟩ := h
  have : portUnit .park s = portUnit .park t := a
  have h1 : originRoom .park s = originRoom .park t := by simp only [originRoom, this]
  unfold placeOrigin
  rw [h1]
  split <;> simp [SameOut, setPort, portUnit, a, b, c, d, e, g, bump]

/-- Moving reports. -/
theorem moveReportsFrom_out (w : List Report) (s t : State) (h : SameOut s t) :
    SameOut (moveReportsFrom w s) (moveReportsFrom w t) := by
  induction w generalizing s t with
  | nil => obtain ⟨a, b, c, d, e, g⟩ := h; exact ⟨a, rfl, c, d, e, g⟩
  | cons r rest ih =>
    unfold moveReportsFrom
    rw [h.1]
    split
    · apply ih
      have : broadcastFrame Config.allStations (.report r) s =
          broadcastFrame Config.allStations (.report r) t := by
        simp [broadcastFrame, ownStation, h.2.2.2.1]
      rw [this]; exact placeOrigin_out _ _ _ h
    · obtain ⟨a, b, c, d, e, g⟩ := h; exact ⟨rfl, rfl, c, d, e, g⟩

/-- A report. -/
theorem report_out (k : ReportKind) (x y : Nat) (s t : State) (h : SameOut s t) :
    SameOut (report k x y s) (report k x y t) := by
  have h' := h
  obtain ⟨a, b, c, d, e, g⟩ := h
  unfold report
  rw [b, e, g]
  split
  · exact h'
  · split
    · exact moveReportsFrom_out _ _ _ ⟨a, rfl, c, d, rfl, g⟩
    · exact ⟨a, b, by simp [bump, c], d, e, g⟩

/-! ## The calendar, ride by ride (R89, R90) -/

/-- Two states agree in what a ride's ring is rolled by: its record and the class rates. -/
abbrev SameRing (i : Nat) (s t : State) : Prop :=
  s.rides.length = t.rides.length ∧ rideAt i s = rideAt i t ∧ s.classes = t.classes

/-- Cancelling holds changes no ride record. -/
theorem cancelHoldsOn_same (i : Nat) (l l' : List Nat) (s t : State) (h : SameRing i s t) :
    SameRing i (cancelHoldsOn i l s) (cancelHoldsOn i l' t) := by
  obtain ⟨h1, h2, h3⟩ := h
  refine ⟨by simpa using h1, ?_, by simpa using h3⟩
  rw [rideAt_congr i s (cancelHoldsOn i l s) (by simp), rideAt_congr i t (cancelHoldsOn i l' t) (by simp), h2]

/-- A ring written. -/
theorem setRing_same (i : Nat) (l : List Window) (s t : State) (h : SameRing i s t) :
    SameRing i (setRing i l s) (setRing i l t) := by
  obtain ⟨h1, h2, h3⟩ := h
  refine ⟨by simpa [setRing] using h1, ?_, by simpa using h3⟩
  simp only [setRing, rideAt_updRide, h1, h2]

/-- The window length. -/
theorem SameRing.length {i : Nat} {s t : State} (h : SameRing i s t) : lengthOf i s = lengthOf i t := by
  simp [lengthOf, h.2.1]

/-- The capacity. -/
theorem SameRing.capacity {i : Nat} {s t : State} (h : SameRing i s t) : rideCapacity i s = rideCapacity i t := by
  simp [rideCapacity, nominalRate, classRate, h.2.1, h.2.2]

/-- A roll. -/
theorem rollTo_same (fuel i m : Nat) (s t : State) (h : SameRing i s t) :
    SameRing i (rollTo fuel i m s) (rollTo fuel i m t) := by
  induction fuel generalizing s t with
  | zero => exact h
  | succ n ih =>
    unfold rollTo
    rw [h.2.1]
    cases hr : (rideAt i t).ring with
    | nil => exact h
    | cons w rest =>
      simp only [h.length]
      split
      · apply ih
        unfold rollOnce
        have hc := cancelHoldsOn_same i [w.start] [w.start] s t h
        simp only
        rw [hc.length, hc.capacity, hc.2.1]
        exact setRing_same _ _ _ _ hc
      · exact h

/-- What a minute event makes of a ring depends on that ride and the class rates. -/
theorem ringMinute_same (f l m i : Nat) (s t : State) (h : SameRing i s t) :
    SameRing i (ringMinute f l m i s) (ringMinute f l m i t) := by
  unfold ringMinute
  rw [h.2.1, h.length]
  split
  · exact h
  · split
    · unfold rebuildAt
      have hc :=
        cancelHoldsOn_same i ((rideAt i s).ring.map (fun w => w.start)) ((rideAt i t).ring.map (fun w => w.start)) s t h
      simp only
      rw [hc.length, hc.capacity]
      exact setRing_same _ _ _ _ hc
    · exact rollTo_same _ _ _ _ _ h

/-- A ring written leaves the other rides. -/
theorem setRing_other (i j : Nat) (h : j ≠ i) (l : List Window) (s : State) : SameRing j (setRing i l s) s :=
  ⟨by simp [setRing], by simp [setRing, h], by simp⟩

/-- Cancelling holds changes no ride record. -/
theorem cancelHoldsOn_id (i j : Nat) (l : List Nat) (s : State) : SameRing j (cancelHoldsOn i l s) s :=
  ⟨by simp, rideAt_congr _ _ _ (by simp), by simp⟩

theorem SameRing.trans {i : Nat} {s t u : State} (h : SameRing i s t) (h' : SameRing i t u) : SameRing i s u :=
  ⟨h.1.trans h'.1, h.2.1.trans h'.2.1, h.2.2.trans h'.2.2⟩

/-- A minute event of one ring leaves the other rides. -/
theorem ringMinute_other (f l m i j : Nat) (h : j ≠ i) (s : State) : SameRing j (ringMinute f l m i s) s := by
  unfold ringMinute
  split
  · exact ⟨rfl, rfl, rfl⟩
  · split
    · exact (setRing_other i j h _ _).trans (cancelHoldsOn_id _ _ _ _)
    · rename_i h1 h2
      clear h1 h2
      generalize m + 1 = fuel
      induction fuel generalizing s with
      | zero => exact ⟨rfl, rfl, rfl⟩
      | succ n ih =>
        unfold rollTo
        split
        · exact ⟨rfl, rfl, rfl⟩
        · split
          · exact SameRing.trans (ih _ ) ((setRing_other i j h _ _).trans (cancelHoldsOn_id _ _ _ _))
          · exact ⟨rfl, rfl, rfl⟩

/-! ## The pass book reads no ring (R35, R113) -/

/-- Two states agree in what the pass book reads and writes, but for the token lists. -/
abbrev SameBook (s t : State) : Prop :=
  s.passes = t.passes ∧ s.park = t.park ∧ s.counters = t.counters ∧ s.straps = t.straps ∧ s.clock = t.clock ∧
  ∀ j, (rideAt j s).cfg = (rideAt j t).cfg ∧ (rideAt j s).outages = (rideAt j t).outages

/-- A ring written leaves configuration and outages. -/
theorem rideAt_setRing_cfg (i j : Nat) (l : List Window) (s : State) :
    (rideAt j (setRing i l s)).cfg = (rideAt j s).cfg ∧ (rideAt j (setRing i l s)).outages = (rideAt j s).outages := by
  unfold setRing; rw [rideAt_updRide]; split <;> simp_all

theorem SameBook.refl (s : State) : SameBook s s := ⟨rfl, rfl, rfl, rfl, rfl, fun _ => ⟨rfl, rfl⟩⟩

theorem SameBook.trans {s t u : State} (h : SameBook s t) (h' : SameBook t u) : SameBook s u := by
  obtain ⟨a, b, c, d, e, f⟩ := h; obtain ⟨a', b', c', d', e', f'⟩ := h'
  exact ⟨a.trans a', b.trans b', c.trans c', d.trans d', e.trans e',
    fun j => ⟨(f j).1.trans (f' j).1, (f j).2.trans (f' j).2⟩⟩

/-- A ring written. -/
theorem setRing_book (i : Nat) (l : List Window) (s : State) : SameBook (setRing i l s) s :=
  ⟨by simp, by simp, by simp, by simp, by simp, fun j => rideAt_setRing_cfg _ _ _ _⟩

/-- Holds cancelled. -/
theorem cancelHoldsOn_book (i : Nat) (l : List Nat) (s : State) : SameBook (cancelHoldsOn i l s) s := by
  refine ⟨by simp, by simp, by simp, by simp, by simp, fun j => ?_⟩
  rw [rideAt_congr j s _ (by simp)]; exact ⟨rfl, rfl⟩

/-- A minute event of a ring. -/
theorem ringMinute_book (f l m i : Nat) (s : State) : SameBook (ringMinute f l m i s) s := by
  unfold ringMinute
  split
  · exact .refl _
  · split
    · exact (setRing_book i _ _).trans (cancelHoldsOn_book _ _ _)
    · rename_i h1 h2
      clear h1 h2
      generalize m + 1 = fuel
      induction fuel generalizing s with
      | zero => exact .refl _
      | succ n ih =>
        unfold rollTo
        split
        · exact .refl _
        · split
          · exact SameBook.trans (ih _ ) ((setRing_book i _ _).trans (cancelHoldsOn_book _ _ _))
          · exact .refl _

/-- Which passes are due, and which were disrupted. -/
theorem expiryDue_same (m : Nat) (p : Pass) (s t : State) (h : SameBook s t) :
    expiryDue m p s = expiryDue m p t ∧ disrupted p s = disrupted p t := by
  obtain ⟨_, _, _, _, e, f⟩ := h
  have h1 : ∀ j, rideCfg (rideAt j s) = rideCfg (rideAt j t) := fun j => by simp [rideCfg, (f j).1]
  have h2 : ∀ start, deadlineOf start p s = deadlineOf start p t := by
    intro start; simp [deadlineOf, h1, adriftMinutes, e]
  constructor
  · simp [expiryDue, h2]
  · simp only [disrupted, h1, h2, (f p.ride).2, nowSecond, e]

/-- A PASSLOG. -/
theorem passLog_same (event : PassEvent) (k : Nat) (p : Pass) (n : Nat) (s t : State) (hp : s.park = t.park)
    (hc : s.counters = t.counters) (hs : s.straps = t.straps) (hk : s.clock = t.clock) :
    (passLog event k p n s).park = (passLog event k p n t).park ∧
      (passLog event k p n s).counters = (passLog event k p n t).counters := by
  unfold passLog placeOrigin
  have h : portUnit .park s = portUnit .park t := hp
  have hr : originRoom .park s = originRoom .park t := by simp only [originRoom, h]
  rw [hr]
  split
  · simp [setPort, broadcastFrame, ownStation, portUnit, hp, hc, hs, hk]
  · simp [hp, bump, hc]

/-- A pass that is due. -/
theorem examinePass_same (k : Nat) (p : Pass) (s t : State) (h : SameBook s t) :
    SameBook (examinePass k p s) (examinePass k p t) := by
  have hd := (expiryDue_same 0 p s t h).2
  obtain ⟨a, b, c, d, e, f⟩ := h
  have hr : ∀ u j, rideAt j (examinePass k p u) = rideAt j u := fun u j => rideAt_congr _ _ _ (by simp)
  refine ⟨?_, ?_, ?_, by simpa using d, by simpa using e, fun j => by rw [hr, hr]; exact f j⟩
  all_goals
    unfold examinePass
    rw [hd]
    split
  · simp [putPass, a]
  · simp [freePass, a]
  · exact (passLog_same .disrupted k p (p.party - p.admitted) (putPass k { p with state := .anytime } s)
      (putPass k { p with state := .anytime } t) b c d e).1
  · simp only [freePass_keeps]
    exact (passLog_same .expire k p p.admitted _ _ (by simpa using b) (by simp [bump, c]) (by simpa using d)
      (by simpa using e)).1
  · exact (passLog_same .disrupted k p (p.party - p.admitted) (putPass k { p with state := .anytime } s)
      (putPass k { p with state := .anytime } t) b c d e).2
  · simp only [freePass_keeps]
    exact (passLog_same .expire k p p.admitted _ _ (by simpa using b) (by simp [bump, c]) (by simpa using d)
      (by simpa using e)).2

end Sys2Proof.Machine
end

