-- ==== Sys2Proof/Laws/Moves.lean ====
section
/-! SUPPORT. What a move of a ride, and the end of a list of holds, make of the state: one statement for each shared
operation, in the words of the statements for the provers. -/

open Sys2Proof.Claims

namespace Sys2Proof.Machine

/-! ## Ends of holds -/

/-- A change of a token record reads the token table alone. -/
theorem updToken_tokens (token : List Byte) (f : TokenRec → TokenRec) (s t : State) (h : s.tokens = t.tokens) :
    (updToken token f s).tokens = (updToken token f t).tokens := by
  unfold updToken putToken tokenRec; rw [h]; split <;> rfl

/-- The hold counts of ended holds depend on the token table alone. -/
theorem holdsLowered_tokens (l : List (Nat × Hold)) (s t : State) (h : s.tokens = t.tokens) :
    (holdsLowered l s).tokens = (holdsLowered l t).tokens := by
  unfold holdsLowered
  induction l generalizing s t with
  | nil => exact h
  | cons e rest ih => exact ih _ _ (updToken_tokens _ _ _ _ h)

/-- Two lists of ended holds, one after the other. -/
theorem holdsLowered_append (l m : List (Nat × Hold)) (s : State) :
    holdsLowered (l ++ m) s = holdsLowered m (holdsLowered l s) := by simp [holdsLowered]

/-- What ending a list of holds without their room does to the token table and the hold list (R138, R139). -/
theorem cancels_is (l : List (Nat × Hold)) (s : State) :
    (l.foldl (fun t e => cancelHold e.1 e.2 t) s).tokens = (holdsLowered l s).tokens ∧
      (l.foldl (fun t e => cancelHold e.1 e.2 t) s).holds = s.holds.filter (fun e => e.1 ∉ l.map Prod.fst) := by
  induction l generalizing s with
  | nil => exact ⟨rfl, (List.filter_eq_self.2 (by simp)).symm⟩
  | cons e rest ih =>
    have := ih (cancelHold e.1 e.2 s)
    constructor
    · rw [List.foldl_cons, this.1]
      exact holdsLowered_tokens _ _ _ (updToken_tokens _ _ _ _ rfl)
    · rw [List.foldl_cons, this.2]
      simp only [cancelHold, lowerHolds, updToken_keeps, clearSlot, tblErase,
        List.filter_filter, List.map_cons, List.mem_cons, not_or]
      apply List.filter_congr; intro d _; by_cases hd : d.1 = e.1 <;> simp [hd]

/-- The same with their room given back (R138). -/
theorem releases_is (l : List (Nat × Hold)) (s : State) :
    (l.foldl (fun t e => releaseHold e.1 e.2 t) s).tokens = (holdsLowered l s).tokens ∧
      (l.foldl (fun t e => releaseHold e.1 e.2 t) s).holds = s.holds.filter (fun e => e.1 ∉ l.map Prod.fst) := by
  induction l generalizing s with
  | nil => exact ⟨rfl, (List.filter_eq_self.2 (by simp)).symm⟩
  | cons e rest ih =>
    have := ih (releaseHold e.1 e.2 s)
    constructor
    · rw [List.foldl_cons, this.1]
      exact holdsLowered_tokens _ _ _ (updToken_tokens _ _ _ _ (by simp [clearSlot]))
    · rw [List.foldl_cons, this.2]
      simp only [releaseHold, cancelHold, lowerHolds, updToken_keeps, clearSlot, releaseRoom_keeps,
        tblErase, List.filter_filter, List.map_cons, List.mem_cons, not_or]
      apply List.filter_congr; intro d _; by_cases hd : d.1 = e.1 <;> simp [hd]

/-- In a canonical table the entries whose keys are among those of the entries with a property are those entries. -/
theorem filter_keys {α : Type} (t : List (Nat × α)) (hw : tblWf t) (p : Nat × α → Bool) :
    t.filter (fun e => e.1 ∉ (t.filter p).map Prod.fst) = t.filter (fun e => !p e) := by
  apply List.filter_congr
  intro e he
  have : e.1 ∈ (t.filter p).map Prod.fst ↔ p e = true := by
    constructor
    · intro h
      obtain ⟨d, hd, hk⟩ := List.mem_map.1 h
      obtain ⟨hd1, hd2⟩ := List.mem_filter.1 hd
      have h1 := tblGet_of_mem t hw d.1 d.2 hd1
      have h2 := tblGet_of_mem t hw e.1 e.2 he
      rw [hk, h2] at h1
      have : e = d := Prod.ext hk.symm (Option.some.inj h1)
      rw [this]; exact hd2
    · intro h; exact List.mem_map.2 ⟨e, List.mem_filter.2 ⟨he, h⟩, rfl⟩
  simp only [this]; simp

/-- Start, capacity, issued and held of a window: all of it but the room map mark. -/
abbrev countsOf (w : Window) : Nat × Nat × Nat × Nat := (w.start, w.capacity, w.issued, w.held)

/-- A release of room: the held count falls, the capacity stays (R94, log 25). -/
theorem releaseRoom_counts (i start party : Nat) (s : State) :
    (rideAt i (releaseRoom i start party s)).ring.map countsOf =
      (rideAt i s).ring.map
        (fun w => (w.start, w.capacity, w.issued, if w.start = start then w.held - party else w.held)) ∧
    rideAt i (releaseRoom i start party s) =
      { rideAt i s with ring := (rideAt i (releaseRoom i start party s)).ring } ∧
    ∀ j, j ≠ i → rideAt j (releaseRoom i start party s) = rideAt j s := by
  unfold releaseRoom updWindow setRing
  refine ⟨?_, ?_, fun j h => by simp [h]⟩
  · rw [rideAt_updRide]
    split
    · simp only [List.map_map]
      apply List.map_congr_left; intro w _
      simp only [Function.comp]; split <;> simp [remark, countsOf]
    · have : (rideAt i s).ring = [] := by
        have : ¬ i < s.rides.length := by simp_all
        simp [rideAt, List.getD_eq_getElem?_getD, List.getElem?_eq_none (Nat.le_of_not_lt this), Ride.reset]
      simp [this]
  · rw [rideAt_updRide]; split <;> rfl

/-- What releasing a list of holds of one ride does to its ring: each window's held count falls by their guests. -/
theorem releases_ring (i : Nat) (l : List (Nat × Hold)) (hl : ∀ e ∈ l, e.2.ride = i) (s : State) :
    (rideAt i (l.foldl (fun t e => releaseHold e.1 e.2 t) s)).ring.map countsOf =
      (rideAt i s).ring.map (fun w => (w.start, w.capacity, w.issued,
        w.held - ((l.filter (fun e => e.2.start == w.start)).map (fun e => e.2.party)).sum)) ∧
    rideAt i (l.foldl (fun t e => releaseHold e.1 e.2 t) s) =
      { rideAt i s with ring := (rideAt i (l.foldl (fun t e => releaseHold e.1 e.2 t) s)).ring } ∧
    ∀ j, j ≠ i → rideAt j (l.foldl (fun t e => releaseHold e.1 e.2 t) s) = rideAt j s := by
  induction l generalizing s with
  | nil => simp
  | cons e rest ih =>
    have he := hl e (by simp)
    obtain ⟨h1, h2, h3⟩ := ih (fun d hd => hl d (by simp [hd])) (releaseHold e.1 e.2 s)
    have hr : ∀ j, rideAt j (releaseHold e.1 e.2 s) = rideAt j (releaseRoom i e.2.start e.2.party s) := by
      intro j; rw [releaseHold, he]; apply rideAt_congr; simp [cancelHold, clearSlot]
    obtain ⟨g1, g2, g3⟩ := releaseRoom_counts i e.2.start e.2.party s
    rw [List.foldl_cons]
    refine ⟨?_, ?_, fun j hj => by rw [h3 j hj, hr, g3 j hj]⟩
    · rw [h1, hr]
      have := congrArg (List.map (fun c : Nat × Nat × Nat × Nat => (c.1, c.2.1, c.2.2.1,
        c.2.2.2 - ((rest.filter (fun e => e.2.start == c.1)).map (fun e => e.2.party)).sum))) g1
      simp only [List.map_map] at this
      refine Eq.trans this ?_
      apply List.map_congr_left; intro w _
      simp only [Function.comp, List.filter_cons]
      by_cases h : w.start = e.2.start
      · simp [h, Nat.sub_sub]
      · have : ¬ e.2.start = w.start := Ne.symm h
        simp [h, this]
    · rw [h2, hr, g2]
/-! ## Rolls (R89, R92, R139) -/

/-- Cancelling a ride's holds on some windows: the holds are gone, their tokens' hold counts lowered, no ride record
touched (R139). -/
theorem cancelHoldsOn_is (i : Nat) (starts : List Nat) (s : State) (hw : tblWf s.holds) :
    (cancelHoldsOn i starts s).holds = s.holds.filter (fun e => ¬ (e.2.ride = i ∧ e.2.start ∈ starts)) ∧
      (cancelHoldsOn i starts s).tokens =
        (holdsLowered (s.holds.filter (fun e => e.2.ride = i ∧ e.2.start ∈ starts)) s).tokens := by
  have hp : (fun e : Nat × Hold => e.2.ride == i && starts.contains e.2.start) =
      (fun e => decide (e.2.ride = i ∧ e.2.start ∈ starts)) := by
    funext e; by_cases h1 : e.2.ride = i <;> by_cases h2 : e.2.start ∈ starts <;> simp [h1, h2]
  unfold cancelHoldsOn
  have h := cancels_is (s.holds.filter (fun e => e.2.ride == i && starts.contains e.2.start)) s
  rw [hp] at h ⊢
  refine ⟨?_, h.1⟩
  rw [h.2, filter_keys _ hw]
  apply List.filter_congr; intro e _; simp

/-- A ring written: that ride's record, the others, and nothing else. -/
theorem setRing_is (i : Nat) (l : List Window) (s : State) (h : i < s.rides.length) :
    rideAt i (setRing i l s) = { rideAt i s with ring := l } ∧
      (∀ j, j ≠ i → rideAt j (setRing i l s) = rideAt j s) ∧
      setRing i l s = { s with rides := (setRing i l s).rides } := by
  unfold setRing
  exact ⟨by simp [h], fun j hj => by simp [hj], rfl⟩

/-- One roll: the current window leaves with its holds, a window a length after the last one enters (R89, R139). -/
theorem rollOnce_is (i : Nat) (s : State) (w : Window) (rest : List Window) (hlen : i < s.rides.length)
    (hr : (rideAt i s).ring = w :: rest) (hw : tblWf s.holds) :
    rideAt i (rollOnce i w s) =
      { rideAt i s with
        ring := rest ++ [newWindow (rideCapacity i s) ((rest.getLastD w).start + lengthOf i s) 0] } ∧
    (rollOnce i w s).holds = s.holds.filter (fun e => ¬ (e.2.ride = i ∧ e.2.start = w.start)) ∧
    (rollOnce i w s).tokens =
      (holdsLowered (s.holds.filter (fun e => e.2.ride = i ∧ e.2.start = w.start)) s).tokens ∧
    (∀ j, j ≠ i → rideAt j (rollOnce i w s) = rideAt j s) ∧
    rollOnce i w s =
      { s with rides := (rollOnce i w s).rides, holds := (rollOnce i w s).holds,
               tokens := (rollOnce i w s).tokens } := by
  have hc := cancelHoldsOn_is i [w.start] s hw
  have hcs : cancelHoldsOn i [w.start] s =
      { s with holds := (cancelHoldsOn i [w.start] s).holds, tokens := (cancelHoldsOn i [w.start] s).tokens } := by
    apply state_eq <;> simp
  unfold rollOnce
  generalize cancelHoldsOn i [w.start] s = fr at hc hcs
  have hra : ∀ j, rideAt j fr = rideAt j s := fun j => rideAt_congr j s fr (by rw [hcs])
  have hcl : fr.classes = s.classes := by rw [hcs]
  have e1 : lengthOf i fr = lengthOf i s := by simp [lengthOf, hra]
  have e2 : rideCapacity i fr = rideCapacity i s := by simp [rideCapacity, nominalRate, classRate, hra, hcl]
  simp only [hra, hr, e1, e2, rolled]
  obtain ⟨g1, g2, g3⟩ :=
    setRing_is i (rest ++ [newWindow (rideCapacity i s) ((rest.getLastD w).start + lengthOf i s) 0]) fr
      (by rw [hcs]; exact hlen)
  refine ⟨by rw [g1, hra], ?_, ?_, fun j hj => by rw [g2 j hj, hra], ?_⟩
  · rw [g3]; dsimp only; rw [hc.1]; simp
  · rw [g3]; dsimp only; rw [hc.2]; simp
  · apply state_eq <;> first | rfl | (rw [g3]; dsimp only; rw [hcs])

/-- A minute event that does not pass the ring whole rolls it (R89, R90). -/
theorem ringMinute_rolls (first last m i : Nat) (s : State) (w : Window) (rest : List Window)
    (hr : (rideAt i s).ring = w :: rest) (h : m ≠ first ∨ last < w.start + 24 * lengthOf i s) :
    ringMinute first last m i s = rollTo (m + 1) i m s := by
  unfold ringMinute
  rw [if_neg (by simp [hr]), if_neg]
  rw [hr]; simp only [ringEnd, Config.ringLength]; omega

/-- The first event of a run that passes the ring whole rebuilds it (R90). -/
theorem ringMinute_rebuilds (first last i : Nat) (s : State) (w : Window) (rest : List Window)
    (hr : (rideAt i s).ring = w :: rest) (h : w.start + 24 * lengthOf i s ≤ last) :
    ringMinute first last first i s = rebuildAt i last s := by
  unfold ringMinute
  rw [if_neg (by simp [hr]), if_pos]
  rw [hr]; simp only [ringEnd, Config.ringLength]; exact ⟨trivial, by omega⟩

/-- The windows that `n` rolls bring in, after a ring of `k` windows (R89, R92). -/
def enteredWindows (start length capacity k n : Nat) : List Window :=
  (List.range n).map (fun j => newWindow capacity (start + (k + j) * length) 0)

/-- The holds that `n` rolls cancel, in the order of the windows that leave (R89, R92, R139). -/
def departedHolds (i start length n : Nat) (s : State) : List (Nat × Hold) :=
  (List.range n).flatMap (fun j => s.holds.filter (fun e => e.2.ride = i ∧ e.2.start = start + j * length))

/-- What rolls up to a minute make of the state, when the minute lies in the window `n` further on (R89, R92). -/
theorem rollTo_is (n fuel i m : Nat) (s : State) (w : Window) (rest : List Window) (hf : n < fuel)
    (hlen : i < s.rides.length) (hr : (rideAt i s).ring = w :: rest) (hL : 0 < lengthOf i s)
    (hsp : ∀ p v, (w :: rest)[p]? = some v → v.start = w.start + p * lengthOf i s)
    (h1 : w.start + n * lengthOf i s ≤ m) (h2 : m < w.start + (n + 1) * lengthOf i s) (hw : tblWf s.holds) :
    (rideAt i (rollTo fuel i m s)).ring =
      ((w :: rest) ++ enteredWindows w.start (lengthOf i s) (rideCapacity i s) (rest.length + 1) n).drop n ∧
    (rollTo fuel i m s).holds =
      s.holds.filter (fun e => ¬ (e.2.ride = i ∧ ∃ j < n, e.2.start = w.start + j * lengthOf i s)) ∧
    (rollTo fuel i m s).tokens = (holdsLowered (departedHolds i w.start (lengthOf i s) n s) s).tokens ∧
    rideAt i (rollTo fuel i m s) = { rideAt i s with ring := (rideAt i (rollTo fuel i m s)).ring } ∧
    (∀ j, j ≠ i → rideAt j (rollTo fuel i m s) = rideAt j s) ∧
    rollTo fuel i m s =
      { s with rides := (rollTo fuel i m s).rides, holds := (rollTo fuel i m s).holds,
               tokens := (rollTo fuel i m s).tokens } := by
  induction n generalizing fuel s w rest with
  | zero =>
    have : rollTo fuel i m s = s := by
      cases fuel with
      | zero => rfl
      | succ k =>
        unfold rollTo; rw [hr]; simp only
        rw [if_neg (by omega)]
    rw [this]
    refine ⟨by simp [enteredWindows, hr], (List.filter_eq_self.2 (by simp)).symm, rfl, rfl, fun _ _ => rfl, rfl⟩
  | succ n ih =>
    obtain ⟨k, rfl⟩ : ∃ k, fuel = k + 1 := ⟨fuel - 1, by omega⟩
    have hstep : rollTo (k + 1) i m s = rollTo k i m (rollOnce i w s) := by
      rw [rollTo, hr]; simp only
      rw [if_pos (by rw [Nat.succ_mul] at h1; have := Nat.zero_le (n * lengthOf i s); omega)]
    rw [hstep]
    obtain ⟨g1, gh, gt, g2, g3⟩ := rollOnce_is i s w rest hlen hr hw
    have e3 : (rest.getLastD w).start = w.start + rest.length * lengthOf i s := by
      refine hsp rest.length (rest.getLastD w) ?_
      cases rest with
      | nil => rfl
      | cons a b => simp [List.getLastD_eq_getLast?, List.getLast?_eq_getElem?]
    rw [e3, Nat.add_assoc, ← Nat.succ_mul] at g1
    generalize rollOnce i w s = s1 at g1 gh gt g2 g3
    have hg : (rideAt i s1).cfg = (rideAt i s).cfg := by rw [g1]
    have hL1 : lengthOf i s1 = lengthOf i s := by simp [lengthOf, rideCfg, hg]
    have hcls : s1.classes = s.classes := by rw [g3]
    have hC1 : rideCapacity i s1 = rideCapacity i s := by simp [rideCapacity, nominalRate, classRate, rideCfg, hg, hcls]
    have hlen1 : i < s1.rides.length := by
      apply Nat.lt_of_not_le; intro h
      have : (rideAt i s1).ring = [] := by
        simp [rideAt, List.getD_eq_getElem?_getD, List.getElem?_eq_none h, Ride.reset]
      simp [g1] at this
    have hw1 : tblWf s1.holds := by rw [gh]; exact hw.filter _
    obtain ⟨w1, rest1, hr1⟩ : ∃ w1 rest1,
        rest ++ [newWindow (rideCapacity i s) (w.start + (rest.length + 1) * lengthOf i s) 0] = w1 :: rest1 := by
      cases rest with
      | nil => exact ⟨_, _, rfl⟩
      | cons a b => exact ⟨_, _, rfl⟩
    have hsp1' : ∀ p v, (w1 :: rest1)[p]? = some v → v.start = w.start + (p + 1) * lengthOf i s := by
      intro p v hv
      rw [← hr1] at hv
      by_cases hp : p < rest.length
      · rw [List.getElem?_append_left hp] at hv
        exact hsp (p + 1) v (by simpa using hv)
      · rw [List.getElem?_append_right (by omega)] at hv
        have hp0 : p - rest.length = 0 := by
          rcases Nat.eq_zero_or_pos (p - rest.length) with h | h
          · exact h
          · rw [List.getElem?_eq_none (by simp; omega)] at hv; simp at hv
        rw [hp0] at hv
        have : p = rest.length := by omega
        simp at hv; subst hv this; rfl
    have hw1s : w1.start = w.start + lengthOf i s := by simpa using hsp1' 0 w1 rfl
    have := ih k s1 w1 rest1 (by omega) hlen1 (by rw [g1]; exact hr1) (by rw [hL1]; exact hL)
      (by intro p v hv; rw [hsp1' p v hv, hw1s, hL1, Nat.succ_mul]; omega)
      (by rw [hL1, hw1s]; rw [Nat.succ_mul] at h1; omega)
      (by rw [hL1, hw1s]; rw [Nat.succ_mul] at h2; omega) hw1
    obtain ⟨a1, a2, a3, a4, a5, a6⟩ := this
    rw [hL1, hC1, hw1s] at a1
    rw [hL1, hw1s] at a2 a3
    have hlenr : rest1.length = rest.length := by have := congrArg List.length hr1; simp at this; omega
    refine ⟨?_, ?_, ?_, ?_, ?_, ?_⟩
    · rw [a1, ← hr1, hlenr]
      have : enteredWindows w.start (lengthOf i s) (rideCapacity i s) (rest.length + 1) (n + 1) =
          newWindow (rideCapacity i s) (w.start + (rest.length + 1) * lengthOf i s) 0 ::
            enteredWindows (w.start + lengthOf i s) (lengthOf i s) (rideCapacity i s) (rest.length + 1) n := by
        unfold enteredWindows
        rw [List.range_succ_eq_map, List.map_cons, List.map_map]
        simp only [Nat.add_zero]
        congr 1
        apply List.map_congr_left; intro j _
        simp only [Function.comp]
        congr 1
        rw [show rest.length + 1 + j.succ = (rest.length + 1 + j) + 1 by omega, Nat.succ_mul]
        omega
      rw [this]; simp
    · rw [a2, gh, List.filter_filter]
      apply List.filter_congr; intro e _
      rw [← Bool.decide_and, decide_eq_decide]
      constructor
      · rintro ⟨h3, h4⟩ ⟨h5, j, h6, h7⟩
        cases j with
        | zero => exact h4 ⟨h5, by simpa using h7⟩
        | succ j => exact h3 ⟨h5, j, by omega, by rw [h7, Nat.succ_mul]; omega⟩
      · intro h
        refine ⟨?_, ?_⟩
        · rintro ⟨h5, j, h6, h7⟩
          exact h ⟨h5, j + 1, by omega, by rw [h7, Nat.succ_mul]; omega⟩
        · rintro ⟨h5, h6⟩
          exact h ⟨h5, 0, by omega, by simpa using h6⟩
    · rw [a3]
      have h3 : departedHolds i (w.start + lengthOf i s) (lengthOf i s) n s1 =
          (List.range n).flatMap
            (fun j => s.holds.filter (fun e => e.2.ride = i ∧ e.2.start = w.start + (j + 1) * lengthOf i s)) := by
        unfold departedHolds
        congr 1; funext j
        rw [gh, List.filter_filter]
        apply List.filter_congr; intro e _
        rw [← Bool.decide_and, decide_eq_decide, Nat.succ_mul]
        constructor
        · rintro ⟨⟨h5, h6⟩, -⟩; exact ⟨h5, by omega⟩
        · rintro ⟨h5, h6⟩; exact ⟨⟨h5, by omega⟩, by rintro ⟨-, h7⟩; omega⟩
      have h4 : departedHolds i w.start (lengthOf i s) (n + 1) s =
          s.holds.filter (fun e => e.2.ride = i ∧ e.2.start = w.start) ++
            (List.range n).flatMap
              (fun j => s.holds.filter (fun e => e.2.ride = i ∧ e.2.start = w.start + (j + 1) * lengthOf i s)) := by
        unfold departedHolds
        rw [List.range_succ_eq_map, List.flatMap_cons, List.flatMap_map]
        simp
      rw [h3, h4, holdsLowered_append]
      apply holdsLowered_tokens
      exact gt
    · rw [a4, g1]
    · intro j hj; rw [a5 j hj, g2 j hj]
    · rw [a6, g3]

/-! ## Moves of a ride -/

/-- What the estimator makes of a ride record at an entry to OPEN, HELD or DOWN from another of these (R48, R78). -/
abbrev entered (new : RideState) (r : Ride) : Ride := if new = .down then r else postingRun r

/-- An entry to OPEN, HELD or DOWN from another of these: the record, its report, and the release test (R48). -/
theorem enterState_is (i : Nat) (new : RideState) (s : State) (hlen : i < s.rides.length)
    (hc : (rideAt i s).state ≠ .closed) (hnew : new ≠ .closed) :
    enterState i new s = entryTested i new (setRide i (entered new { rideAt i s with state := new })
      (changeReported i (rideAt i s).state new s)) := by
  have hE : ∀ rate r, estimatorEnters rate (rideAt i s).state new r = entered new r := by
    intro rate r
    cases new <;> simp_all [estimatorEnters, running]
  unfold enterState
  simp only [hnew, if_false, report_updRide]
  simp only [updRide, rideAt_report, rideAt_setRide, hlen, and_self, if_true, setRide_setRide, twoCodes, Nat.mul_comm,
    report_keeps, hE]

/-- A move to OPEN, HELD or DOWN from another of these, its outage opened or closed first (R44, R48, R50 to R52). -/
theorem moveRide_is (i : Nat) (new : RideState) (s : State) (hlen : i < s.rides.length)
    (hc : (rideAt i s).state ≠ .closed) (hnew : new ≠ .closed) :
    moveRide i new s =
      entryTested i new
        (setRide i
          (entered new { rideAt i s with
            state := new, outages := outagesAfter (rideAt i s).state new (nowSecond s) (rideAt i s).outages })
          (entryReported i (rideAt i s).state new (rideAt i s).outages s)) := by
  unfold moveRide
  by_cases hd : new = .down
  · subst hd
    simp only [if_true, outagesAfter, entryReported, true_and]
    have ho :
        openOutage i s =
          setRide i { rideAt i s with outages := withOutage (nowSecond s) (rideAt i s).outages }
            (if 4 ≤ (rideAt i s).outages.length then
              report .outageMerged i (((rideAt i s).outages.map (fun o => o.start)).headD 0 / 60) s
            else s) := by
      unfold openOutage updRide
      dsimp only
      by_cases h4 : (rideAt i s).outages.length < 4
      · rw [if_pos h4, if_neg (by omega)]
      · rw [if_neg h4, if_pos (by omega), rideAt_report]
    rw [ho, enterState_is]
    · rw [rideAt_setRide]
      simp only [changeReported, report_setRide, setRide_setRide]
      split <;> simp [*]
    · split <;> simp [hlen]
    · rw [rideAt_setRide]; split <;> simp [hlen, hc]
    · exact hnew
  · simp only [hd, if_false, outagesAfter, entryReported, false_and]
    by_cases hdo : (rideAt i s).state = .down
    · simp only [hdo, if_true, closeOutage, updRide]
      rw [enterState_is _ _ _ (by simpa using hlen) (by simp [rideAt_setRide, hlen]) hnew]
      simp [changeReported, report_setRide, setRide_setRide, rideAt_setRide, hlen]
    · simp only [hdo, if_false]
      rw [enterState_is _ _ _ hlen hc hnew]

/-- A move to CLOSED: its outage closed first, the move reported, then the ride's holds released (R47, R48, R138). -/
theorem moveRide_closed_is (i : Nat) (s : State) (hlen : i < s.rides.length) :
    moveRide i .closed s =
      releaseHoldsOn i
        (setRide i { rideAt i s with
            state := .closed, outages := outagesAfter (rideAt i s).state .closed (nowSecond s) (rideAt i s).outages }
          (changeReported i (rideAt i s).state .closed s)) := by
  have hE : ∀ rate old r, estimatorEnters rate old .closed r = r := fun _ _ _ => rfl
  have hn : ¬ RideState.closed = .down := by simp
  have ho : ¬ RideState.closed = .opened := by simp
  unfold moveRide enterState
  simp only [hn, ho, if_false, if_true, outagesAfter, report_updRide]
  by_cases hd : (rideAt i s).state = .down
  · simp [hd, hE, closeOutage, updRide, rideAt_setRide, hlen, setRide_setRide, report_setRide, twoCodes, Nat.mul_comm]
  · simp [hd, hE, updRide, rideAt_setRide, hlen, setRide_setRide, twoCodes, Nat.mul_comm]

/-! ## Closures (R47, R138, R180) -/

/-- A move to CLOSED as the records, the hold list and the token table show it (R47, R48, R138). -/
theorem moveRide_closed_shows (i : Nat) (s : State) (hlen : i < s.rides.length) (hw : tblWf s.holds) :
    rideAt i (moveRide i .closed s) =
      { rideAt i s with
        state := .closed, outages := outagesAfter (rideAt i s).state .closed (nowSecond s) (rideAt i s).outages,
        ring := (rideAt i (moveRide i .closed s)).ring } ∧
    (rideAt i (moveRide i .closed s)).ring.map countsOf =
      (rideAt i s).ring.map (fun w => (w.start, w.capacity, w.issued, w.held - guestsHeld i w.start s)) ∧
    (moveRide i .closed s).holds = s.holds.filter (fun e => e.2.ride ≠ i) ∧
    (moveRide i .closed s).tokens = (holdsLowered (s.holds.filter (fun e => e.2.ride = i)) s).tokens ∧
    (∀ j, j ≠ i → rideAt j (moveRide i .closed s) = rideAt j s) ∧
    moveRide i .closed s =
      { s with rides := (moveRide i .closed s).rides, holds := (moveRide i .closed s).holds,
               tokens := (moveRide i .closed s).tokens,
               park := (changeReported i (rideAt i s).state .closed s).park,
               reportQueue := (changeReported i (rideAt i s).state .closed s).reportQueue,
               counters := (changeReported i (rideAt i s).state .closed s).counters } := by
  rw [moveRide_closed_is i s hlen]
  generalize hv : setRide i _ (changeReported i _ .closed s) = v
  have hvh : v.holds = s.holds := by subst hv; simp
  have hvt : v.tokens = s.tokens := by subst hv; simp
  have hvr : rideAt i v = { rideAt i s with
      state := .closed, outages := outagesAfter (rideAt i s).state .closed (nowSecond s) (rideAt i s).outages } := by
    subst hv; simp [rideAt_setRide, hlen]
  have hr := releases_is (v.holds.filter (fun e => e.2.ride == i)) v
  have hg := releases_ring i (v.holds.filter (fun e => e.2.ride == i))
    (by intro e he; simpa using (List.mem_filter.1 he).2) v
  rw [← releaseHoldsOn] at hr hg
  obtain ⟨g1, g2, g3⟩ := hg
  have hp : (fun e : Nat × Hold => e.2.ride == i) = (fun e => decide (e.2.ride = i)) := by
    funext e; by_cases hh : e.2.ride = i <;> simp [hh]
  refine ⟨?_, ?_, ?_, ?_, ?_, ?_⟩
  · conv => lhs; rw [g2, hvr]
  · refine g1.trans ?_
    rw [hvr]; dsimp only
    apply List.map_congr_left; intro w _
    simp only [guestsHeld, holdsNaming, List.filter_filter, hvh]
    simp [Bool.and_comm]
  · rw [hr.2, filter_keys _ (by rw [hvh]; exact hw), hvh]
    apply List.filter_congr; intro e _; by_cases hh : e.2.ride = i <;> simp [hh]
  · rw [hr.1, holdsLowered_tokens _ v s hvt, hvh, hp]
  · intro j hj; rw [g3 j hj]; subst hv; simp [rideAt_setRide, hj]
  · apply state_eq <;> simp <;> subst hv <;> simp

/-- A ride that is not CLOSED has a record. -/
theorem lt_of_not_closed (i : Nat) (s : State) (h : (rideAt i s).state ≠ .closed) : i < s.rides.length := by
  apply Nat.lt_of_not_le; intro h'
  exact h (by simp [rideAt, List.getD_eq_getElem?_getD, List.getElem?_eq_none h', Ride.reset])

/-- The first `n` rides closed one after the other, those that are CLOSED left out (R180). -/
theorem closings_show (n : Nat) (s t : State) (hw : tblWf s.holds)
    (ht : ((List.range n).filter (fun i => (rideAt i s).state != .closed)).foldl (fun t i => closeIfOpen i t) s = t) :
    (∀ i < n, ∀ r, rideAt i s = r →
      rideAt i t = { r with
        state := .closed, outages := (if r.state = .down then withOutageClosed (nowSecond s) r.outages else r.outages),
        ring := (rideAt i t).ring } ∧
      (rideAt i t).ring.map countsOf =
        r.ring.map (fun w => (w.start, w.capacity, w.issued,
          w.held - if r.state = .closed then 0 else guestsHeld i w.start s))) ∧
    (∀ j, n ≤ j → rideAt j t = rideAt j s) ∧
    t.holds = s.holds.filter (fun e => n ≤ e.2.ride ∨ (rideAt e.2.ride s).state = .closed) ∧
    t.tokens = (holdsLowered
      ((List.range n).flatMap
        (fun i => s.holds.filter (fun e => e.2.ride = i ∧ (rideAt i s).state ≠ .closed))) s).tokens ∧
    t = { s with rides := t.rides, holds := t.holds, tokens := t.tokens, park := t.park,
                 reportQueue := t.reportQueue, counters := t.counters } := by
  induction n generalizing t with
  | zero =>
    subst ht
    refine ⟨by omega, fun _ _ => rfl, ?_, rfl, rfl⟩
    exact (List.filter_eq_self.2 (by simp)).symm
  | succ n ih =>
    obtain ⟨h1, h2, h3, h4, h5⟩ := ih _ rfl
    generalize hu : ((List.range n).filter (fun i => (rideAt i s).state != .closed)).foldl
      (fun t i => closeIfOpen i t) s = u at h1 h2 h3 h4 h5
    rw [List.range_succ, List.filter_append, List.foldl_append, hu] at ht
    have hnu := h2 n (Nat.le_refl _)
    have hnow : nowSecond u = nowSecond s := by rw [h5]; rfl
    rw [List.range_succ, List.flatMap_append]
    simp only [List.flatMap_singleton]
    by_cases hc : (rideAt n s).state = .closed
    · have hf : [n].filter (fun i => (rideAt i s).state != .closed) = [] := by simp [hc]
      rw [hf] at ht; simp only [List.foldl_nil] at ht; subst ht
      refine ⟨?_, fun j hj => h2 j (by omega), ?_, ?_, h5⟩
      · intro i hi r hr
        by_cases hin : i < n
        · exact h1 i hin r hr
        · have : i = n := by omega
          subst this; rw [hnu, hr]; subst hr
          refine ⟨?_, by simp [hc]⟩
          rw [if_neg (by simp [hc]), ← hc]
      · rw [h3]; apply List.filter_congr; intro e _; apply decide_eq_decide.2
        constructor
        · rintro (h | h)
          · by_cases h' : e.2.ride = n
            · right; rw [h']; exact hc
            · left; omega
          · exact .inr h
        · rintro (h | h)
          · left; omega
          · exact .inr h
      · have hnone : s.holds.filter (fun e => e.2.ride = n ∧ (rideAt n s).state ≠ .closed) = [] :=
          List.filter_eq_nil_iff.2 (by simp [hc])
        rw [h4, hnone, List.append_nil]
    · have hf : [n].filter (fun i => (rideAt i s).state != .closed) = [n] := by simp [hc]
      rw [hf] at ht; simp only [List.foldl_cons, List.foldl_nil] at ht
      have hcu : (rideAt n u).state ≠ .closed := by rw [hnu]; exact hc
      rw [closeIfOpen, if_neg hcu] at ht
      obtain ⟨m1, m2, m3, m4, m5, m6⟩ :=
        moveRide_closed_shows n u (lt_of_not_closed n u hcu) (by rw [h3]; exact hw.filter _)
      rw [ht] at m1 m2 m3 m4 m5 m6
      have hgu : ∀ start, guestsHeld n start u = guestsHeld n start s := by
        intro start
        simp only [guestsHeld, holdsNaming, h3, List.filter_filter]
        congr 2
        apply List.filter_congr; intro e _
        by_cases hh : e.2.ride = n <;> simp [hh]
      refine ⟨?_, fun j hj => by rw [m5 j (by omega), h2 j (by omega)], ?_, ?_, ?_⟩
      · intro i hi r hr
        by_cases hin : i < n
        · rw [m5 i (by omega)]; exact h1 i hin r hr
        · have : i = n := by omega
          subst this
          rw [hnu, hr] at m1 m2
          refine ⟨?_, ?_⟩
          · rw [m1, hnow]; simp
          · rw [m2]; subst hr; simp [hc, hgu]
      · rw [m3, h3, List.filter_filter]
        apply List.filter_congr; intro e _
        rw [← Bool.decide_and]; apply decide_eq_decide.2
        constructor
        · rintro ⟨h, h' | h'⟩
          · left; omega
          · exact .inr h'
        · rintro (h | h)
          · exact ⟨by omega, .inl (by omega)⟩
          · refine ⟨?_, .inr h⟩
            intro h'; rw [h'] at h; exact hc h
      · rw [m4, holdsLowered_append]
        have e1 : u.holds.filter (fun e => e.2.ride = n) =
            s.holds.filter (fun e => e.2.ride = n ∧ (rideAt n s).state ≠ .closed) := by
          rw [h3, List.filter_filter]
          apply List.filter_congr; intro e _
          by_cases hh : e.2.ride = n <;> simp [hh, hc]
        rw [e1]
        exact holdsLowered_tokens _ _ _ h4
      · apply state_eq <;> first | rfl | (rw [m6]; dsimp only; rw [h5])

/-! ## The ports, the reports and the return lane read no pass and no token -/

/-- Another pass table and another token table. -/
abbrev withBook (passes : List (Nat × Pass)) (tokens : List (Nat × TokenRec)) (s : State) : State :=
  { s with passes := passes, tokens := tokens }

/-- Placing a frame. -/
theorem placeOrigin_book (p : Port) (f : OriginFrame) (s : State) (l : List (Nat × Pass))
    (m : List (Nat × TokenRec)) :
    placeOrigin p f (withBook l m s) = withBook l m (placeOrigin p f s) := by
  unfold placeOrigin
  have h : originRoom p (withBook l m s) = originRoom p s := rfl
  rw [h]; split <;> cases p <;> rfl

/-- Moving reports. -/
theorem moveReportsFrom_book (w : List Report) (s : State) (l : List (Nat × Pass)) (m : List (Nat × TokenRec)) :
    moveReportsFrom w (withBook l m s) = withBook l m (moveReportsFrom w s) := by
  induction w generalizing s with
  | nil => rfl
  | cons r rest ih =>
    unfold moveReportsFrom
    by_cases h : s.park.origin.length < Config.reportMark
    · simp only [h, if_true]
      rw [← ih, ← placeOrigin_book]; rfl
    · simp only [h, if_false]

/-- A report. -/
theorem report_book (k : ReportKind) (a b : Nat) (s : State) (l : List (Nat × Pass)) (m : List (Nat × TokenRec)) :
    report k a b (withBook l m s) = withBook l m (report k a b s) := by
  unfold report
  by_cases h1 : reportLevel k < s.reportMask
  · simp only [h1, if_true]
  · by_cases h2 : s.reportQueue.length < Config.reportPlaces
    · simp only [h1, h2, if_true, if_false, moveReports]
      rw [← moveReportsFrom_book]
    · simp only [h1, h2, if_false]; rfl

/-- The release condition. -/
theorem testRelease_book (i : Nat) (s : State) (l : List (Nat × Pass)) (m : List (Nat × TokenRec)) :
    testRelease i (withBook l m s) = withBook l m (testRelease i s) := by
  unfold testRelease
  have h : rideAt i (withBook l m s) = rideAt i s := rfl
  rw [h]
  split
  · unfold sendRelease
    have h1 : broadcastFrame (releaseTarget i (withBook l m s)) (.release (releaseBatch (rideAt i (withBook l m s))))
        (withBook l m s) = broadcastFrame (releaseTarget i s) (.release (releaseBatch (rideAt i s))) s := rfl
    rw [h1, placeOrigin_book]; rfl
  · rfl

/-! ## Guests admitted -/

/-- Admitted guests in the return lane: R, the estimate, the report at 9999 and the release test (R146, R149). -/
theorem raiseOccupancy_is (i guests : Nat) (s : State) :
    raiseOccupancy i guests s =
      (let v :=
          clampReported i ((rideAt i s).lane.occupancy + guests - 9999)
            (setRide i (withOccupancy (min 9999 ((rideAt i s).lane.occupancy + guests)) (rideAt i s)) s)
       if (rideAt i s).lane.occupancy < min 9999 ((rideAt i s).lane.occupancy + guests) then testRelease i v
       else v) := by
  have e : ∀ v, setOccupancy i v s = setRide i (withOccupancy v (rideAt i s)) s := by
    intro v; simp only [setOccupancy, updRide, withOccupancy, eq_iff_iff]
  unfold raiseOccupancy clampReported
  simp only [e, Config.maxOccupancy]
  have : (9999 < (rideAt i s).lane.occupancy + guests) = (0 < (rideAt i s).lane.occupancy + guests - 9999) := by
    apply propext; omega
  simp only [this]

/-! ## Guests given back -/

/-- What CANCEL_PASS answers as given back, in the words of the statements (R117). -/
theorem returnedFor_is (p : Pass) (s : State) : returnedFor p s = guestsGivenBack p s := by
  unfold returnedFor guestsGivenBack
  cases p.start with
  | none => rfl
  | some start =>
    have search : (fun w : Window => w.start == start) = (fun w => decide (w.start = start)) := by
      funext w; by_cases h : w.start = start <;> simp [h]
    simp only [returnedGuests, returnApplies, search, unadmitted]
    cases found : (rideAt p.ride s).ring.find? (fun w => decide (w.start = start)) with
    | none => simp
    | some w =>
      have there : (rideAt p.ride s).ring.any (fun w => decide (w.start = start)) = true :=
        List.any_eq_true.2 ⟨w, List.mem_of_find?_eq_some found,
          List.find?_some (p := fun w : Window => decide (w.start = start)) found⟩
      by_cases h1 : p.length = lengthOf p.ride s <;> by_cases h2 : nowMinute s < start <;> simp [there, h1, h2]

/-! ## Hold ids -/

/-- The advance of the next id, in the words of the statements (R123). -/
theorem nextIdAfter_eq (id : Nat) : nextIdAfter id = idAfter id := by
  simp only [nextIdAfter, idAfter]

/-- An advance repeated, taken from the first one on. -/
theorem repeat_succ_first (f : Nat → Nat) (n x : Nat) : Nat.repeat f (n+1) x = Nat.repeat f n (f x) := by
  induction n with
  | zero => rfl
  | succ n ih => rw [Nat.repeat, ih]; rfl

/-- The search for an unused id passes over used ids alone, and stops at one that is unused or after `fuel` (R123). -/
theorem unusedId_is (fuel id : Nat) (s : State) :
    ∃ n, n ≤ fuel ∧ unusedId fuel id s = Nat.repeat idAfter n id ∧
      (∀ j < n, ∃ e ∈ s.holds, e.2.id = Nat.repeat idAfter j id) ∧
      ((∀ e ∈ s.holds, e.2.id ≠ unusedId fuel id s) ∨ n = fuel) := by
  induction fuel generalizing id with
  | zero => exact ⟨0, by omega, rfl, by omega, .inr rfl⟩
  | succ k ih =>
    unfold unusedId
    by_cases h : idInUse id s = true
    · obtain ⟨n, h0, h1, h2, h3⟩ := ih (nextIdAfter id)
      simp only [h, if_true]
      refine ⟨n + 1, by omega, by rw [h1, repeat_succ_first, nextIdAfter_eq], ?_, ?_⟩
      · intro j hj
        cases j with
        | zero => simpa [idInUse, Nat.repeat] using h
        | succ j =>
          obtain ⟨e, he, h4⟩ := h2 j (by omega)
          exact ⟨e, he, by rw [h4, repeat_succ_first, nextIdAfter_eq]⟩
      · rcases h3 with h3 | h3
        · exact .inl h3
        · right; omega
    · simp only [h]
      refine ⟨0, by omega, rfl, by omega, .inl ?_⟩
      intro e he h4; apply h; simp [idInUse]; exact ⟨_, _, he, h4⟩

end Sys2Proof.Machine
end

