-- ==== Sys2Proof/Laws/Soundness.lean ====
section
/-! SUPPORT. How the operations on windows, posted waits and outage lists keep the conditions of Safety.lean. -/

namespace Sys2Proof.Machine

/-! ## Windows (R86, R87, R93 to R96) -/

/-- A mark taken afresh leaves a window within its capacity. -/
theorem remark_within (w : Window) : (remark w).withinCapacity ↔ w.withinCapacity := Iff.rfl

/-- A new window is within its capacity (R84, R89 to R91). -/
theorem newWindow_within (capacity start issued : Nat) : (newWindow capacity start issued).withinCapacity := by
  simp only [Window.withinCapacity, newWindow, remark]; omega

/-- A recomputation of capacity keeps a window within it (R87). -/
theorem recapacity_within (minute capacity : Nat) (w : Window) (h : w.withinCapacity) :
    (recapacity minute capacity w).withinCapacity := by
  unfold recapacity; split
  · simp only [Window.withinCapacity, remark]; omega
  · exact h

/-- A reservation of a party that fits in the room, of at least one guest (R93). -/
theorem reserve_within (w : Window) (party : Nat) (h : w.withinCapacity) (h1 : 1 ≤ party) (h2 : party ≤ roomOf w) :
    ({ w with held := w.held + party } : Window).withinCapacity := by
  simp only [Window.withinCapacity, roomOf] at *; omega

/-- A release (R94), and a return (R96). -/
theorem release_within (w : Window) (party : Nat) (h : w.withinCapacity) :
    ({ w with held := w.held - party } : Window).withinCapacity ∧
      ({ w with issued := w.issued - party } : Window).withinCapacity := by
  simp only [Window.withinCapacity] at *; omega

/-- A conversion of a party that is held (R95). -/
theorem convert_within (w : Window) (party : Nat) (h : w.withinCapacity) (h1 : party ≤ w.held) :
    ({ w with held := w.held - party, issued := w.issued + party } : Window).withinCapacity := by
  simp only [Window.withinCapacity] at *; omega

/-! ## The posted wait (R77 to R80) -/

/-- The candidate is a multiple of the display step and stands at most at top (R77, R80, Table 4-2). -/
theorem candidateOf_postable (step wait : Nat) (h : step ∈ [1, 5, 10]) :
    candidateOf step wait % step = 0 ∧ candidateOf step wait ≤ topOf step := by
  refine ⟨?_, Nat.min_le_left _ _⟩
  unfold candidateOf
  rcases Nat.le_total (topOf step) ((wait + step - 1) / step * step) with h1 | h1
  · rw [Nat.min_eq_left h1]
    simp at h; rcases h with h | h | h <;> subst h <;> rfl
  · rw [Nat.min_eq_right h1]; exact Nat.mul_mod_left _ _

/-- The posted wait after a posting run is the one before or the candidate (R78 to R80). -/
theorem postingRun_posted (r : Ride) (c : RideCfg) (hc : r.cfg = some c) :
    (postingRun r).est.posted = r.est.posted ∨ (postingRun r).est.posted = candidateOf c.displayStep r.est.rawWait := by
  unfold postingRun; rw [hc]; dsimp only
  split
  · split
    · exact .inr rfl
    · simp only [stepRule]; split
      · exact .inr rfl
      · exact .inl rfl
  · exact .inl rfl

/-- A posting run keeps the posted wait a multiple of the display step, at most top (R80). -/
theorem postingRun_postable (r : Ride) (hs : ∀ c ∈ r.cfg, c.displayStep ∈ [1, 5, 10]) (h : r.postable) :
    (postingRun r).postable := by
  have e : (postingRun r).cfg = r.cfg := by rw [postingRun_is]
  intro c hc
  rw [e] at hc
  rcases postingRun_posted r c hc with h1 | h1 <;> rw [h1]
  · exact h c hc
  · exact candidateOf_postable _ _ (hs c hc)

/-- A recomputation, and so a re-estimate, keeps it too (R76). -/
theorem reestimate_postable (r : Ride) (hs : ∀ c ∈ r.cfg, c.displayStep ∈ [1, 5, 10]) (h : r.postable) :
    (reestimate r).postable := by
  apply postingRun_postable
  · rw [recompute_is]; exact hs
  · unfold Ride.postable; rw [recompute_is]; exact h

/-! ## Outage lists (R50 to R52) -/

/-- A list with its first interval taken off is in order. -/
theorem outagesOrdered_tail (a : Outage) (os : List Outage) (h : outagesOrdered (a :: os) = true) :
    outagesOrdered os = true := by
  cases os with
  | nil => rfl
  | cons b rest => simp only [outagesOrdered, Bool.and_eq_true] at h; exact h.2

/-- Intervals in order that are all closed, with a new one that starts no earlier than the last one ends. -/
theorem outagesOrdered_append (os : List Outage) (o : Outage) (h : outagesOrdered os = true)
    (hc : outageOpen os = false) (ho : lastEnd os ≤ o.start) (hs : o.stop = none) : outagesOrdered (os ++ [o]) = true := by
  induction os with
  | nil => simp [outagesOrdered, hs]
  | cons a rest ih =>
    cases rest with
    | nil =>
      cases hst : a.stop with
      | none => simp [outageOpen, hst] at hc
      | some e =>
        have h1 : a.start ≤ e := by simpa [outagesOrdered, hst] using h
        have h2 : e ≤ o.start := by simpa [lastEnd, hst] using ho
        simp [outagesOrdered, hst, hs, h1, h2]
    | cons b more =>
      have h' := h
      simp only [outagesOrdered, Bool.and_eq_true] at h'
      simp only [List.cons_append, outagesOrdered, Bool.and_eq_true]
      refine ⟨h'.1, ih h'.2 ?_ ?_⟩
      · simpa [outageOpen, List.getLast?_cons_cons] using hc
      · simpa [lastEnd, List.getLast?_cons_cons] using ho

/-- Two intervals merged leave the list in order (R52). -/
theorem mergeEarliest_ordered (now : Nat) (os : List Outage) (h : outagesOrdered os = true)
    (hc : outageOpen os = false) :
    outagesOrdered (mergeEarliest now os) = true ∧ outageOpen (mergeEarliest now os) = false := by
  match os, h, hc with
  | [], _, _ => exact ⟨rfl, rfl⟩
  | [a], h, hc => exact ⟨h, hc⟩
  | a :: b :: rest, h, hc =>
    have hab := h
    simp only [outagesOrdered, Bool.and_eq_true] at hab
    cases ha : a.stop with
    | none => simp [ha] at hab
    | some ea =>
      cases rest with
      | nil =>
        cases hb : b.stop with
        | none => simp [outageOpen, hb] at hc
        | some eb => simp_all [mergeEarliest, outagesOrdered, outageOpen] <;> omega
      | cons c more =>
        cases hb : b.stop with
        | none => simp_all [outagesOrdered]
        | some eb =>
          refine ⟨?_, by simpa [outageOpen, mergeEarliest, List.getLast?_cons_cons] using hc⟩
          cases more <;> simp_all [mergeEarliest, outagesOrdered] <;> omega

/-- A new outage keeps the list in order, and stands open at its end (R50, R52). -/
theorem withOutage_sound (now : Nat) (os : List Outage) (h : outagesOrdered os = true) (hc : outageOpen os = false) :
    outagesOrdered (withOutage now os) = true ∧ outageOpen (withOutage now os) = true := by
  unfold withOutage
  dsimp only
  have hr : outagesOrdered (if os.length < 4 then os else mergeEarliest now os) = true ∧
      outageOpen (if os.length < 4 then os else mergeEarliest now os) = false := by
    split
    · exact ⟨h, hc⟩
    · exact mergeEarliest_ordered now os h hc
  exact ⟨outagesOrdered_append _ _ hr.1 hr.2 (Nat.le_max_right _ _) rfl, by simp [outageOpen]⟩

/-- The open outage closed keeps the list in order, with none open at its end (R51). -/
theorem withOutageClosed_sound (now : Nat) (os : List Outage) (h : outagesOrdered os = true) :
    outagesOrdered (withOutageClosed now os) = true ∧ outageOpen (withOutageClosed now os) = false := by
  induction os with
  | nil => exact ⟨rfl, rfl⟩
  | cons a rest ih =>
    cases rest with
    | nil => cases ha : a.stop <;> simp_all [withOutageClosed, outagesOrdered, outageOpen] <;> omega
    | cons b more =>
      have hab := h
      simp only [outagesOrdered, Bool.and_eq_true] at hab
      obtain ⟨i1, i2⟩ := ih hab.2
      cases ha : a.stop with
      | none => simp [ha] at hab
      | some ea =>
        have hs : (if b.stop.isNone then { b with stop := some (max now b.start) } else b).start = b.start := by
          split <;> rfl
        simp only [withOutageClosed, List.map_cons] at i1 i2 ⊢
        generalize (if b.stop.isNone then { b with stop := some (max now b.start) } else b : Outage) = b' at *
        refine ⟨?_, ?_⟩
        · simp_all [outagesOrdered]
        · rw [← i2]; simp [outageOpen, List.getLast?_cons_cons]

end Sys2Proof.Machine
end

