-- ==== Sys2Proof/Tests/Slice0.lean ====
section
/-! SUPPORT. Tests of the model's own: the ill-formed term each check of `Instr.wf` refuses, one step of every command
with the values the manual gives, and for every obligation with hypotheses a state and operands that meet them. -/

namespace Sys2Proof.Tests

open Sys2Proof.Machine Sys2Proof.Claims

set_option Elab.async false

/-! ## Frames and states for the tests -/

/-- Bytes from numbers. -/
def bs (l : List Nat) : List Byte := l.map (BitVec.ofNat 8)

/-- A two-byte field. -/
def w2 (n : Nat) : List Nat := [n / 256, n % 256]

/-- A four-byte field. -/
def w4 (n : Nat) : List Nat := w2 (n / 65536) ++ w2 (n % 65536)

/-- A line frame with its body padded to 52 bytes after the envelope. -/
def line (port : Port) (source dest : Nat) (body : List Nat) : LineRx :=
  { port := port, ethDst := 1, ethSrc := 9, source := BitVec.ofNat 16 source, dest := BitVec.ofNat 16 dest,
    bodyLen := BitVec.ofNat 16 body.length, rest := bs (body ++ List.replicate (52 - body.length) 0) }

/-- A frame of a field station. -/
def fld (source : Nat) (body : List Nat) : LineRx := line .field source 4094 body

/-- A frame from the park side. -/
def prk (dest : Nat) (body : List Nat) : LineRx := line .park 4000 dest body

/-- A management command to the part, with tag 7. -/
def cmd (parameters : List Nat) : MgmtRx :=
  { port := .park, ethDst := 1, ethSrc := 9, source := 4000, dest := 4094,
    bodyLen := BitVec.ofNat 16 (3 + parameters.length),
    tail := bs (w2 7 ++ parameters ++ List.replicate (52 - parameters.length) 0) }

/-- A station record, UNHEARD, with a silence window of 60 s. -/
def stn (role : Role) (binding : Option Nat) : Station :=
  { role := role, binding := binding, window := 60, supervision := .unheard, deadline := none, baseline := none }

/-- The configuration of the ride of the tests. -/
def cfg : RideCfg :=
  { classNo := 0, windowLength := 15, passShare := 25, minLead := 30, earlyGrace := 10, lateGrace := 15,
    displayStep := 5, queueBase := 3, threshold := 12, batch := 4, spacing := 20, burst := 4, interval := 60 }

/-- The ride of the tests: OPEN, T = S = 1200, with its ring from 645. -/
def ride : Ride :=
  { Ride.reset with
    cfg := some cfg, state := .opened,
    est := { throughput := 1200, mark := none, carry := 0, standbyRate := 1200, rawWait := 3, posted := 5,
             stale := false, firstPosting := false },
    ring := (List.range 24).map
      (fun p => { start := 645 + 15 * p, capacity := 75, issued := 0, held := 0, mark := true }) }

/-- The stations of the tests. -/
def stations : List (Nat × Station) :=
  [(301, stn .entryCounter (some 47)), (310, stn .boardCounter (some 47)), (501, stn .kiosk none),
   (502, stn .kiosk none), (610, stn .returnScanner (some 47)), (620, stn .mergeGate (some 47)),
   (730, stn .board (some 6)), (901, stn .rideControl (some 47)), (902, stn .rideControl (some 3))]

/-- The board of the tests. -/
def boardRec : BoardRec :=
  { station := 730, symbolSet := 2, interval := 60, deadline := 1060,
    slots := [{ ride := some 47, showNext := true }, { ride := none, showNext := false },
              { ride := some 47, showNext := false }] }

/-- A park day at 10:50, elapsed count 1000, with ride 47 configured and OPEN. -/
def day : State :=
  { State.reset with
    device := .day,
    clock := { elapsed := 1000, parkTime := some 39000, state := .synced, syncMark := some 1000, pendingJump := none,
               highMark := some 650 },
    stations := stations, classes := 1200 :: List.replicate 15 0,
    rides := List.replicate 47 Ride.reset ++ [ride], boards := [(6, boardRec)],
    symbols := List.replicate 8 (bs [0x41, 0x43, 0x44, 0x48, 0x53, 0x50, 0x58, 0x4E]) }

/-- The day with a change of ride 47. -/
def dayR (f : Ride → Ride) : State := updRide 47 f day

/-- The day at another elapsed count. -/
def dayE (e : Nat) (s : State) : State := { s with clock := { s.clock with elapsed := e } }

/-- Another day second, the high mark with it. -/
def dayP (p : Nat) (s : State) : State :=
  { s with clock := { s.clock with parkTime := some p, highMark := some (p / 60) } }

/-- Four equal token bytes. -/
def tok (c : Nat) : List Nat := [4, c, c, c, c]

/-- The same token, normalized with the pad byte of reset. -/
def ntok (c : Nat) : List Byte := bs ([c, c, c, c] ++ List.replicate 12 0x20)

/-- A pass for ride 47. -/
def pass (c start party admitted : Nat) : Pass :=
  { token := ntok c, ride := 47, start := some start, length := 15, party := party, admitted := admitted,
    state := .issued }

/-- A pass in the book, with its token record and its guests issued. -/
def withPass (k : Nat) (p : Pass) (s : State) : State :=
  updRide p.ride
    (fun r => { r with ring := r.ring.map (fun w => if p.start = some w.start then { w with issued := p.party } else w) })
    { s with passes := tblSet s.passes k p,
             tokens := tblSet s.tokens (tokenKey p.token) { token := p.token, passes := [k], holds := 0 } }

/-- A hold for ride 47 in slot 0, from kiosk 501 with tag 7. -/
def hold (c start party : Nat) : Hold :=
  { id := 311, token := ntok c, ride := 47, start := start, party := party, kiosk := 501, tag := 7, deadline := 1020 }

/-- A hold in its slot, with its token record and its guests held. -/
def withHold (slot : Nat) (h : Hold) (s : State) : State :=
  updRide h.ride
    (fun r => { r with ring := r.ring.map (fun w => if w.start = h.start then { w with held := h.party } else w) })
    { s with holds := tblSet s.holds slot h,
             tokens := tblSet s.tokens (tokenKey h.token) { token := h.token, passes := [], holds := 1 } }

/-- What a command leaves, looked at through a function. -/
def after {α : Type} (c : Instr) (s : State) (look : State → α) : Option α :=
  match exec c s with
  | .next t => some (look t)
  | _ => none

/-- The last answer in the field origin queue. -/
def answer (s : State) : Option Body := s.field.origin.getLast?.map (·.body)

/-- The last frame in the park origin queue. -/
def sent (s : State) : Option Body := s.park.origin.getLast?.map (·.body)

/-- The result of the last MGMTANS. -/
def result (s : State) : Option MgmtResult :=
  match sent s with
  | some (.mgmtAnswer _ _ reply) => some reply.result
  | _ => none

/-- The day with the only gate of ride 47 SILENT, three guests in the return lane and a merge counter. -/
def gateSilent (counted : Nat) : State :=
  { dayR (fun r => { r with lane := { r.lane with occupancy := 3, mergeCounter := counted, gateSilence := true } }) with
    stations := tblSet stations 620 { stn .mergeGate (some 47) with supervision := .silent } }

/-- The record of ride 47. -/
def r47 (s : State) : Ride := rideAt 47 s

/-! ## Each check of `Instr.wf` refuses a term -/

theorem test_wf_refuses_short_line_frames :
    (∀ c ∈ ([.count, .dispatch, .rideState, .released, .passReq, .take, .drop, .cancel, .redeem, .board, .time,
        .wrongPortMgmt] : List (LineRx → Instr)), (c { fld 301 [] with rest := List.replicate 37 0 }).wf = false) ∧
    ∀ c ∈ ([.unknownCommand 0x1A, .identify, .loadPark, .loadClass, .loadStation, .removeStation, .loadRide,
        .unloadRide, .loadBoard, .loadSymbols, .makeReady, .dayBegin, .dayEnd, .purge, .openRide, .closeRide,
        .setQueue, .setMask, .issueCourtesy, .cancelPass, .queryRide, .queryWindows, .queryToken, .queryPasses,
        .queryStations, .readCounters] : List (MgmtRx → Instr)),
      (c { cmd [] with tail := List.replicate 36 0 }).wf = false := by
  decide +kernel

theorem test_wf_accepts_frames_of_the_least_length :
    (∀ c ∈ ([.count, .dispatch, .rideState, .released, .passReq, .take, .drop, .cancel, .redeem, .board, .time,
        .wrongPortMgmt] : List (LineRx → Instr)), (c { fld 301 [] with rest := List.replicate 38 0 }).wf = true) ∧
      (Instr.identify { cmd [] with tail := List.replicate 37 0 }).wf = true := by
  decide +kernel

/-- An Ethernet frame with 46 payload bytes, of which the first is given. -/
def raw (ethType : Half) (first : Byte) : Frame :=
  { ethDst := 1, ethSrc := 9, ethType := ethType, payload := first :: List.replicate 45 0 }

theorem test_wf_refuses_frames_of_another_row :
    (Instr.otherTraffic .field (raw 0x9C5E 3)).wf = false ∧ (Instr.foreignFrame .park (raw 0x9C5E 3)).wf = false ∧
      (Instr.foreignFrame .park (raw 0x0800 2)).wf = false ∧ (Instr.forward .field (raw 0x9C5E 2)).wf = false ∧
      (Instr.forward .field (raw 0x0800 3)).wf = false ∧
      (Instr.otherTraffic .field { raw 0x0800 3 with payload := [] }).wf = false ∧
      (Instr.foreignFrame .field { raw 0x9C5E 2 with payload := [2] }).wf = false ∧
      (Instr.forward .field { raw 0x9C5E 3 with payload := [3] }).wf = false := by
  decide +kernel

theorem test_wf_refuses_wrong_ports_and_codes :
    (Instr.wrongPortMgmt (prk 4094 [])).wf = false ∧ (Instr.unknownCommand 1 (cmd [])).wf = false ∧
      (Instr.unknownCommand 0x19 (cmd [])).wf = false ∧ (Instr.unknownCommand 0x1A (cmd [])).wf = true := by
  decide +kernel

theorem test_wf_refuses_timers_that_are_not_there :
    (Instr.silenceExpiry 0).wf = false ∧ (Instr.silenceExpiry 4095).wf = false ∧ (Instr.holdExpiry 64).wf = false ∧
      (Instr.releaseTimeout 48).wf = false ∧ (Instr.boardRefresh 64).wf = false ∧ (Instr.silenceExpiry 4094).wf = true ∧
      (Instr.holdExpiry 63).wf = true ∧ (Instr.releaseTimeout 47).wf = true ∧ (Instr.boardRefresh 63).wf = true := by
  decide +kernel

/-! ## The host's two names -/

theorem test_no_row_has_bits : decodeTableWord 8 0x03 = none ∧ decodeTableWord 64 0 = none := by decide

theorem test_fetch_word_changes_nothing : (day.withFetchWord 8 3) = day := by decide +kernel

/-! ## Frames that no block takes -/

theorem test_frame_discard : after (.frameDiscard .field .badCrc) day id = some day := by decide +kernel

theorem test_other_traffic :
    after (.otherTraffic .field (raw 0x0800 3)) day (fun t => t.park.transit) = some [raw 0x0800 3] := by
  decide +kernel

theorem test_foreign_frame :
    after (.foreignFrame .park (raw 0x9C5E 2)) day (fun t => (t.field.transit.length, t.counters.foreign)) =
      some (1, 1) := by
  decide +kernel

theorem test_forward :
    after (.forward .field (raw 0x9C5E 3)) day (fun t => (t.park.transit.length, t.counters)) =
      some (1, Counters.zero) := by
  decide +kernel

theorem test_wrong_port_mgmt :
    after (.wrongPortMgmt (fld 4000 [1, 0, 7])) day (fun t => (t.counters.wrongPortMgmt, t.park.transit)) =
      some (1, []) := by
  decide +kernel

/-! ## Field frames -/

/-- R55, R56: baseline 5000 and value 5012 add 12. -/
theorem test_count_entry :
    after (.count (fld 301 (w2 5012)))
        { day with stations := tblSet stations 301 { stn .entryCounter (some 47) with baseline := some 5000 } }
        (fun t => ((r47 t).q, (r47 t).totals.entries, t.park.transit.length)) = some (12, 12, 1) := by
  decide +kernel

/-- R55, R57, R148: a counter that wraps from 65530 to 4 has counted 10 boardings. -/
theorem test_count_boarding :
    after (.count (fld 310 (w2 4)))
        { dayR (fun r => { r with q := 120 }) with
          stations := tblSet stations 310 { stn .boardCounter (some 47) with baseline := some 65530 } }
        (fun t => ((r47 t).q, (r47 t).totals.boardings, (r47 t).lane.mergeCounter)) = some (110, 10, 10) := by
  decide +kernel

/-- R71: f = 30, carry 0, d = 90 give 1200; T = 1160 moves by floor(40 / 8). -/
theorem test_dispatch_sample :
    after (.dispatch (fld 901 [30, 31]))
        (dayR (fun r => { r with est := { r.est with throughput := 1160, mark := some 910 } }))
        (fun t => ((r47 t).est.throughput, (r47 t).est.mark, (r47 t).est.carry, (r47 t).totals.seats)) =
      some (1165, some 1000, 0, 30) := by
  decide +kernel

/-- R69: a dispatch 12 s after the mark is merged. -/
theorem test_dispatch_merge :
    after (.dispatch (fld 901 [30, 6])) (dayR (fun r => { r with est := { r.est with mark := some 988 } }))
        (fun t => ((r47 t).est.mark, (r47 t).est.carry, t.counters.dispatchMerged)) = some (some 988, 6, 1) := by
  decide +kernel

/-- R45, R48, R51: DOWN opens an outage at the present second and reports OPEN to DOWN; UP closes it. -/
theorem test_ride_state :
    after (.rideState (fld 901 [2])) day (fun t => ((r47 t).state, (r47 t).outages, sent t)) =
      some (.down, [{ start := 39000, stop := none }],
        some (.report { kind := .rideState, subject := 47, detail := 0x0103, parkSecond := some 39000 })) ∧
      after (.rideState (fld 901 [1]))
        (dayR (fun r => { r with state := .down, outages := [{ start := 38000, stop := none }] }))
        (fun t => ((r47 t).state, (r47 t).outages)) = some (.opened, [{ start := 38000, stop := some 39000 }]) := by
  decide +kernel

/-- R151, R154: a count above the batch is held to it; R falls from 6 to 2. -/
theorem test_released :
    after (.released (fld 620 [9]))
        (dayR (fun r => { r with lane := { r.lane with
          occupancy := 6, outstanding := some { batch := 4, deadline := 1010 } } }))
        (fun t => ((r47 t).lane.occupancy, (r47 t).lane.outstanding)) = some (2, none) := by
  decide +kernel

/-- R129: at 10:50 with a lead of 30 minutes the first window is that of 690. -/
theorem test_pass_request_served :
    after (.passReq (fld 501 (w2 7 ++ [47, 3] ++ w2 0xFFFF ++ tok 0x41))) day
        (fun t => (answer t, t.holds.map (fun e => (e.1, e.2.id, e.2.deadline)), t.nextId)) =
      some (some (.offer 7 1 47 690 15 20), [(0, 1, 1020)], 2) := by
  decide +kernel

/-- Table 7-1: a party of 9. -/
theorem test_pass_request_refused :
    after (.passReq (fld 501 (w2 7 ++ [47, 9] ++ w2 0xFFFF ++ tok 0x41))) day (fun t => (answer t, t.counters.refusals)) =
      some (some (.refuse 7 0x10 .badParty 0), 1) := by
  decide +kernel

/-- R133: the hold becomes the pass of entry 0, its guests issued. -/
theorem test_take_granted :
    after (.take (fld 501 (w2 8 ++ w2 311 ++ tok 0x41))) (withHold 0 (hold 0x41 690 3) day)
        (fun t => (answer t, t.passes, t.holds.length,
          ((r47 t).ring.filter (fun w => w.start == 690)).map (fun w => (w.issued, w.held)))) =
      some (some (.grant 8 0 47 690 15 3), [(0, pass 0x41 690 3 0)], 0, [(3, 0)]) := by
  decide +kernel

/-- R132: another token. -/
theorem test_take_not_owner :
    after (.take (fld 501 (w2 8 ++ w2 311 ++ tok 0x42))) (withHold 0 (hold 0x41 690 3) day)
        (fun t => (answer t, t.holds.length)) = some (some (.refuse 8 0x11 .notOwner 0), 1) := by
  decide +kernel

/-- R136. -/
theorem test_drop :
    after (.drop (fld 501 (w2 9 ++ w2 311))) (withHold 0 (hold 0x41 690 3) day)
        (fun t => (answer t, t.holds.length, t.tokens.length, (r47 t).ring.map (·.held))) =
      some (none, 0, 0, List.replicate 24 0) := by
  decide +kernel

/-- R115, R116: one minute before the window. -/
theorem test_cancel :
    after (.cancel (fld 502 (w2 3 ++ [47] ++ tok 0x41))) (withPass 17 (pass 0x41 660 3 0) day)
        (fun t => (answer t, t.passes, t.tokens)) = some (some (.grant 3 17 47 660 15 0), [], []) := by
  decide +kernel

/-- R115: at the window's start it is too late. -/
theorem test_cancel_late :
    after (.cancel (fld 502 (w2 3 ++ [47] ++ tok 0x41))) (dayP 39600 (withPass 17 (pass 0x41 660 3 0) day))
        (fun t => (answer t, t.passes.length)) = some (some (.refuse 3 0x13 .cancelLate 0), 1) := by
  decide +kernel

/-- R143, R144: ten minutes before the window two of five are let in; a second sooner is too early. -/
theorem test_redeem :
    after (.redeem (fld 610 (w2 91 ++ [2] ++ tok 0x41))) (withPass 33 (pass 0x41 660 5 0) day)
        (fun t => (answer t, t.passes.map (fun e => e.2.admitted), (r47 t).lane.occupancy, (r47 t).totals.admissions)) =
      some (some (.admission 91 2 3), [2], 2, 2) ∧
    after (.redeem (fld 610 (w2 90 ++ [2] ++ tok 0x41))) (dayP 38999 (withPass 33 (pass 0x41 660 5 0) day)) answer =
      some (some (.refuse 90 0x14 .early 660)) := by
  decide +kernel

/-! ## BOARD and TIME -/

/-- Tables 9-1 and 9-2: OPEN with a wait of 5, passes open, next return 690; the untouched slot keeps its bytes. -/
theorem test_board :
    after (.board (prk 730 ([3] ++ [1, 2, 3, 4, 5, 6] ++ [7, 8, 9, 10, 11, 12] ++ [13, 14, 15, 16, 17, 18]))) day
        (fun t => (t.field.transit.map (fun f => (f.payload.drop 8).take 19), t.boards.map (fun e => e.2.deadline))) =
      some ([bs ([3] ++ [0x41, 0, 5, 0x50, 2, 0xB2] ++ [7, 8, 9, 10, 11, 12] ++ [0x41, 0, 5, 0x50, 17, 18])], [1060]) := by
  decide +kernel

/-- R28. -/
theorem test_time_first :
    after (.time (prk 4095 (w4 39000))) { day with device := .ready, clock := { Clock.reset with elapsed := 9 } }
        (fun t => (t.clock.parkTime, t.clock.state, t.clock.syncMark, t.clock.highMark, t.field.transit.length)) =
      some (some 39000, .synced, some 9, some 650, 1) := by
  decide +kernel

/-- R27, R32, R89: a frame that brings a FREE clock into minute 660 is reported, and the ring rolls. -/
theorem test_time_crosses :
    after (.time (prk 4095 (w4 39600)))
        { dayP 39580 day with clock := { (dayP 39580 day).clock with state := .free } }
        (fun t => (t.clock.state, t.clock.highMark, (r47 t).ring.head?.map (·.start), sent t)) =
      some (.synced, some 660, some 660,
        some (.report { kind := .clockState, subject := 0, detail := 1, parkSecond := some 39600 })) := by
  decide +kernel

/-- R29, R30: a frame 31 s on is not taken at once. -/
theorem test_time_pends :
    after (.time (prk 4095 (w4 39031))) day (fun t => (t.clock.parkTime, t.clock.pendingJump)) =
      some (some 39000, some (39031, 1000)) := by
  decide +kernel

/-! ## Management -/

theorem test_unknown_command :
    after (.unknownCommand 0x1A (cmd [])) day result = some (some (.refused .unknownCommand)) := by decide +kernel

theorem test_identify :
    after (.identify (cmd [])) day sent =
      some (some (.mgmtAnswer 1 7 { result := .done, adjusted := [], data := (.identity
        { ownStation := 4094, device := .day, clock := .synced, daySecond := some 39000, elapsed := 1000, stations := 9,
          rides := 1, boards := 1, livePasses := 0, holds := 0, purgeCursor := none }) })) := by
  decide +kernel

theorem test_load_park :
    after (.loadPark (cmd [5, 0x2E, 4])) { day with device := .ready } (fun t => (t.settings, result t)) =
      some ({ tokenLimit := 4, pad := 0x2E, holdTime := 5 }, some .clamped) := by
  decide +kernel

theorem test_load_class :
    after (.loadClass (cmd ([2] ++ w2 59))) day (fun t => (classRate 2 t, result t)) = some (60, some .clamped) := by
  decide +kernel

theorem test_load_station :
    after (.loadStation (cmd (w2 212 ++ [2, 47] ++ w2 60))) day (fun t => (tblGet t.stations 212, result t)) =
      some (some (stn .boardCounter (some 47)), some .done) := by
  decide +kernel

theorem test_load_station_binding :
    after (.loadStation (cmd (w2 212 ++ [2, 48] ++ w2 60))) day result = some (some (.refused .range)) := by
  decide +kernel

/-- R11, R156: the only gate of ride 47, SILENT, is loaded again; the RELEASE of the silence's end goes to 4095. -/
theorem test_load_station_gate :
    after (.loadStation (cmd (w2 620 ++ [4, 47] ++ w2 60))) (gateSilent 12)
        (fun t => (t.field.origin.map (fun f => (f.dest, f.body)), tblGet t.stations 620, (r47 t).lane.gateSilence)) =
      some ([(4095, .release 3)], some (stn .mergeGate (some 47)), false) := by
  decide +kernel

theorem test_remove_station :
    after (.removeStation (cmd (w2 301))) day (fun t => (t.stations.length, result t)) = some (8, some .done) := by
  decide +kernel

/-- R39, R40: share 60 is clamped, position 4; T is the class rate. -/
theorem test_load_ride :
    after (.loadRide (cmd ([3, 0, 15, 60, 30, 10, 15, 5, 3, 12, 4, 20, 4] ++ w2 60))) day
        (fun t => ((rideAt 3 t).cfg, (rideAt 3 t).est.throughput, (rideAt 3 t).ring.length, sent t)) =
      some (some { cfg with passShare := 50 }, 1200, 24,
        some (.mgmtAnswer 6 7 { result := .clamped, adjusted := [4], data := .empty })) := by
  decide +kernel

/-- R38: a new window length of an OPEN ride. -/
theorem test_load_ride_wrong_state :
    after (.loadRide (cmd ([47, 0, 20, 25, 30, 10, 15, 5, 3, 12, 4, 20, 4] ++ w2 60))) day
        (fun t => ((r47 t).cfg, result t)) = some (some cfg, some (.refused .wrongState)) := by
  decide +kernel

theorem test_unload_ride :
    after (.unloadRide (cmd [47])) (dayR (fun r => { r with state := .closed })) (fun t => (r47 t, result t)) =
      some (Ride.reset, some .done) := by
  decide +kernel

theorem test_load_board :
    after (.loadBoard (cmd ([63] ++ w2 731 ++ [7] ++ w2 9 ++ [1, 47, 1]))) day
        (fun t => (tblGet t.boards 63, result t)) =
      some (some { station := 731, symbolSet := 7, interval := 10, deadline := 1010,
                   slots := [{ ride := some 47, showNext := true }] }, some .clamped) := by
  decide +kernel

theorem test_load_symbols :
    after (.loadSymbols (cmd [7, 1, 2, 3, 4, 5, 6, 7, 8])) day (fun t => (symbolCode 7 7 t, symbolCode 6 7 t)) =
      some (8, 0x4E) := by
  decide +kernel

theorem test_make_ready :
    after (.makeReady (cmd [])) { day with device := .unconfigured } (fun t => (t.device, result t)) =
      some (.ready, some .done) := by
  decide +kernel

/-- R84: the ring starts with the window that contains minute 650. -/
theorem test_day_begin :
    after (.dayBegin (cmd [])) { dayR (fun r => { r with state := .closed, ring := [] }) with device := .ready }
        (fun t => (t.device, (r47 t).ring.map (·.start), (r47 t).ring.map (·.capacity))) =
      some (.day, (List.range 24).map (fun p => 645 + 15 * p), List.replicate 24 75) := by
  decide +kernel

theorem test_day_end :
    after (.dayEnd (cmd [])) (withHold 0 (hold 0x41 690 3) day)
        (fun t => (t.device, t.purgeCursor, (r47 t).state, t.holds.length)) = some (.closing, some 0, .closed, 0) := by
  decide +kernel

/-- R181: the last live pass has index 1023, so one PURGE ends the day. -/
theorem test_purge_last :
    after (.purge (cmd [])) { withPass 1023 (pass 0x41 690 3 0) day with device := .closing, purgeCursor := some 0 }
        (fun t => (t.device, t.purgeCursor, t.passes.length, result t)) = some (.ready, none, 0, some .done) := by
  decide +kernel

/-- R181: index 1024 is left for the next. -/
theorem test_purge_part :
    after (.purge (cmd [])) { withPass 1024 (pass 0x41 690 3 0) day with device := .closing, purgeCursor := some 0 }
        (fun t => (t.device, t.purgeCursor, t.passes.length, result t)) =
      some (.closing, some 1024, 1, some .inPart) := by
  decide +kernel

/-- R73: T = N, W_raw = 3 + ceil(100 * 60 / 1200), P rounded up to 10. -/
theorem test_open_ride :
    after (.openRide (cmd [47])) (dayR (fun r => { r with state := .closed, q := 100 }))
        (fun t => ((r47 t).state, (r47 t).est.throughput, (r47 t).est.rawWait, (r47 t).est.posted)) =
      some (.opened, 1200, 8, 10) := by
  decide +kernel

theorem test_close_ride :
    after (.closeRide (cmd [47])) (withHold 0 (hold 0x41 690 3) day)
        (fun t => ((r47 t).state, t.holds.length, (r47 t).ring.map (·.held))) =
      some (.closed, 0, List.replicate 24 0) := by
  decide +kernel

theorem test_set_queue :
    after (.setQueue (cmd ([47] ++ w2 10000 ++ w2 0xFFFF))) day
        (fun t => ((r47 t).q, (r47 t).lane.occupancy, sent t)) =
      some (9999, 0, some (.mgmtAnswer 0x10 7 { result := .clamped, adjusted := [2], data := .empty })) := by
  decide +kernel

theorem test_set_mask :
    after (.setMask (cmd [15])) day (·.reportMask) = some 15 ∧
      after (.setMask (cmd [16])) day (·.reportMask) = some 8 := by
  decide +kernel

theorem test_issue_courtesy :
    after (.issueCourtesy (cmd ([47, 8] ++ tok 0x41))) day
        (fun t => (t.passes.map (fun e => (e.1, e.2.start, e.2.party, e.2.state)), t.counters.grants)) =
      some ([(0, none, 8, .anytime)], 0) := by
  decide +kernel

/-- A pass of three in the book, on a window with one guest issued (log 28). -/
def shortWindow : State :=
  updRide 47 (fun r => { r with ring := r.ring.map (fun w => if w.start = 690 then { w with issued := 1 } else w) })
    (withPass 5 (pass 0x41 690 3 0) day)

/-- R117: two of the three guests are given back; of a window with one guest issued, one is. -/
theorem test_cancel_pass :
    after (.cancelPass (cmd (w2 8191))) (withPass 8191 (pass 0x41 690 3 1) day) (fun t => (t.passes, sent t)) =
      some ([], some (.mgmtAnswer 0x13 7 { result := .done, adjusted := [], data := .cancelled 47 690 3 1 2 })) ∧
      after (.cancelPass (cmd (w2 5))) shortWindow (fun t => ((r47 t).ring.map (·.issued), sent t)) =
        some (List.replicate 24 0,
          some (.mgmtAnswer 0x13 7 { result := .done, adjusted := [], data := .cancelled 47 690 3 0 1 })) := by
  decide +kernel

theorem test_query_ride :
    after (.queryRide (cmd [47])) day (fun t => (result t, t.park.origin.length)) = some (some .done, 1) ∧
      after (.queryRide (cmd [48])) day result = some (some (.refused .range)) := by
  decide +kernel

theorem test_query_windows :
    after (.queryWindows (cmd [47])) day sent =
      some (some (.mgmtAnswer 0x15 7 { result := .done, adjusted := [], data := .windows 15 ride.ring })) := by
  decide +kernel

theorem test_query_token :
    after (.queryToken (cmd (tok 0x41))) (withPass 5 (pass 0x41 690 3 1) day) sent =
      some (some (.mgmtAnswer 0x16 7 { result := .done, adjusted := [], data := (.token 0
        [{ index := 5, ride := 47, start := some 690, length := 15, party := 3, admitted := 1, state := .issued,
           disrupted := false }]) })) := by
  decide +kernel

theorem test_query_passes :
    after (.queryPasses (cmd ([47] ++ w2 6))) (withPass 5 (pass 0x41 690 3 1) day) sent =
      some (some (.mgmtAnswer 0x17 7 { result := .done, adjusted := [], data := .passes 47 8191 [] none })) := by
  decide +kernel

theorem test_query_stations :
    after (.queryStations (cmd (w2 902))) day sent =
      some (some (.mgmtAnswer 0x18 7 { result := .done, adjusted := [], data := (.stations 9
        [{ number := 902, role := .rideControl, binding := some 3, window := 60, supervision := .unheard,
           remaining := 0, baseline := none }] none) })) := by
  decide +kernel

theorem test_read_counters :
    after (.readCounters (cmd [1])) (bump .offers day) (fun t => (t.counters, sent t)) =
      some (Counters.zero, some (.mgmtAnswer 0x19 7
        { result := .done, adjusted := [], data := .counters { Counters.zero with offers := 1 } 8192 })) := by
  decide +kernel

/-! ## Timers, ports and pins -/

/-- R23, R24. -/
theorem test_second_tick :
    after .secondTick day (fun t => (t.clock.elapsed, t.clock.parkTime)) = some (1001, some 39001) := by decide +kernel

/-- R90: at minute 660 the ring gives up the window of 645 and gains one at its end. -/
theorem test_second_tick_rolls :
    after .secondTick (dayP 39599 day) (fun t => ((r47 t).ring.head?.map (·.start), (r47 t).ring.getLast?.map (·.start))) =
      some (some 660, some 1005) := by
  decide +kernel

/-- R25. -/
theorem test_clock_free :
    after .clockFree (dayE 1120 day) (fun t => t.clock.state) = some .free ∧
      after .clockFree (dayE 1119 day) (fun t => t.clock.state) = some .synced := by
  decide +kernel

theorem test_clock_adrift :
    after .clockAdrift (dayE 2800 { day with clock := { day.clock with state := .free } }) (fun t => t.clock.state) =
      some .adrift := by
  decide +kernel

/-- R14 to R16: the only counter of the ride that counts boardings falls silent. -/
theorem test_silence_expiry :
    after (.silenceExpiry 310)
        { day with stations := [(310, { stn .boardCounter (some 47) with supervision := .live, deadline := some 1000 })] }
        (fun t => ((tblGet t.stations 310).map (fun st => (st.supervision, st.deadline)), (r47 t).est.stale)) =
      some (some (.silent, none), true) := by
  decide +kernel

theorem test_hold_expiry :
    after (.holdExpiry 0) (dayE 1020 (withHold 0 (hold 0x41 690 3) day)) (fun t => (t.holds, t.expiredIds)) =
      some ([], [311]) := by
  decide +kernel

theorem test_release_timeout :
    after (.releaseTimeout 47)
        (dayR (fun r => { r with lane := { r.lane with
          occupancy := 6, outstanding := some { batch := 4, deadline := 1000 } } }))
        (fun t => ((r47 t).lane.occupancy, (r47 t).lane.outstanding)) = some (6, none) := by
  decide +kernel

theorem test_board_refresh :
    after (.boardRefresh 6) (dayE 1060 day) (fun t => (answer t, t.boards.map (fun e => e.2.deadline))) =
      some (some (.board [{ status := 0x41, wait := 5, pass := 0x50, next := 690 },
        { status := 0, wait := 0, pass := 0, next := 0 }, { status := 0x41, wait := 5, pass := 0x50, next := 0xFFFF }]),
        [1120]) := by
  decide +kernel

/-- The day with one frame in each queue of the field port. -/
def queued : State :=
  { day with field := { day.field with
      transit := [raw 0x0800 3], origin := [{ ethDst := 9, source := 4094, dest := 620, body := .release 4 }] } }

/-- R21. -/
theorem test_link_down :
    after (.linkDown .field) queued (fun t => (t.field.linkUp, t.counters.transitDropField, t.counters.originDropField)) =
      some (false, 1, 1) := by
  decide +kernel

theorem test_link_up :
    after (.linkUp .field) { day with field := { day.field with linkUp := false } } (fun t => t.field) =
      some PortUnit.reset := by
  decide +kernel

/-- R20. -/
theorem test_transmit_start :
    after (.transmitStart .field) queued (fun t => (t.field.transit.length, t.field.sending, t.field.turn)) =
      some (0, some (.transit (raw 0x0800 3)), .origin) := by
  decide +kernel

theorem test_transmit_done :
    after (.transmitDone .field) { day with field := { day.field with sending := some (.transit (raw 0x0800 3)) } }
        (fun t => t.field) = some PortUnit.reset := by
  decide +kernel

theorem test_reset : after (.reset 700) { day with resetHeld := true } ownStation = some 700 ∧
    after (.reset 4095) day id = some { State.reset with straps := 4095 } := by
  decide +kernel

theorem test_reset_asserted :
    after .resetAsserted day (·.resetHeld) = some true ∧
      after (.count (fld 301 (w2 5))) { day with resetHeld := true } id = some { day with resetHeld := true } := by
  decide +kernel

/-- Table 1-1: an ADMIT on the wire. -/
theorem test_wire :
    (wireFrame { ethDst := 9, source := 4094, dest := 610, body := .admission 91 2 3 }).payload.take 12 =
      bs [3, 0x23, 0x0F, 0xFE, 0x02, 0x62, 0, 4, 0, 91, 2, 3] := by
  decide +kernel

/-! ## Hypotheses that are met

For each obligation with hypotheses, one theorem or a few: states and operands that meet them, clause by clause, at the
ends of their ranges. -/

/-- A received port, from checks that can be decided. -/
theorem receives {p : Port} {s : State} (h : s.resetHeld = false ∧ (portUnit p s).linkUp = true) : Receives p s :=
  ⟨h.1, h.2⟩

/-- A field frame that reaches R6, from checks that can be decided. -/
theorem judged {rx : LineRx} {s : State}
    (h : (s.resetHeld = false ∧ (portUnit .field s).linkUp = true) ∧ rx.port = .field ∧
      LongEnough (8 + rx.rest.length) ∧ s.device ≠ .unconfigured) : Judged rx s :=
  ⟨receives h.1, h.2.1, h.2.2.1, h.2.2.2⟩

/-- An accepted frame, from checks that can be decided and the row's body check. -/
theorem accepted {row : FieldRow} {rx : LineRx} {s : State} {st : Station}
    (h : ((s.resetHeld = false ∧ (portUnit .field s).linkUp = true) ∧ rx.port = .field ∧
      LongEnough (8 + rx.rest.length) ∧ s.device ≠ .unconfigured) ∧
      EnvelopeFits rx ∧ tblGet s.stations rx.source.toNat = some st ∧ st.role ∈ row.roles)
    (b : row.fits (bodyOf rx)) : Accepted row rx s st :=
  ⟨judged h.1, h.2.1, h.2.2.1, h.2.2.2, b⟩

/-- An accepted frame about a configured ride. -/
theorem about {row : FieldRow} {rx : LineRx} {s : State} {st : Station} {i : Nat} {c : RideCfg}
    (a : Accepted row rx s st) (h : st.binding = some i ∧ i ≤ 47 ∧ (rideAt i s).cfg = some c) :
    AboutRide row rx s st i c :=
  ⟨a, h.1, h.2.1, h.2.2⟩

/-- A MGMT frame that is a command to the part. -/
theorem commanded {rx : MgmtRx} {s : State}
    (h : (s.resetHeld = false ∧ (portUnit .park s).linkUp = true) ∧ rx.port = .park ∧
      LongEnough (9 + rx.tail.length) ∧ rx.dest.toNat = ownStation s ∧
      (rx.bodyLen.toNat ≤ 1188 ∧ rx.bodyLen.toNat ≤ 1 + rx.tail.length) ∧ 3 ≤ rx.bodyLen.toNat) : Commanded rx s :=
  ⟨receives h.1, h.2.1, h.2.2.1, h.2.2.2.1, h.2.2.2.2.1, h.2.2.2.2.2⟩

/-- A command about a configured ride. -/
theorem namesRide {rx : MgmtRx} {s : State} {bytes i : Nat} {c : RideCfg} (a : Commanded rx s)
    (h : bytes ≤ (params rx).length ∧ u8At (params rx) 0 = i ∧ i ≤ 47 ∧ (rideAt i s).cfg = some c) :
    NamesRide rx s bytes i c :=
  ⟨a, h.1, h.2.1, h.2.2.1, h.2.2.2⟩

/-- A TIME frame the clock sees. -/
theorem timeFrame {rx : LineRx} {s : State} {v : Nat}
    (h : (s.resetHeld = false ∧ (portUnit .park s).linkUp = true) ∧ rx.port = .park ∧
      LongEnough (8 + rx.rest.length) ∧ s.device ≠ .unconfigured ∧ EnvelopeFits rx ∧ (bodyOf rx).length = 4 ∧
      u32At (bodyOf rx) 0 = v ∧ v ≤ 129599) : TimeFrame rx s v :=
  ⟨receives h.1, h.2.1, h.2.2.1, h.2.2.2.1, h.2.2.2.2.1, h.2.2.2.2.2.1, h.2.2.2.2.2.2.1, h.2.2.2.2.2.2.2⟩

/-- The day with the RESET pin held. -/
def heldInReset : State := { day with resetHeld := true }

/-- The tables of the day in UNCONFIGURED. -/
def fresh : State := { day with device := .unconfigured }

/-- The day with an unset clock, in READY. -/
def unset : State := { day with device := .ready, clock := { Clock.reset with elapsed := 9 } }

/-! ### Steps, reset, ports -/

theorem meets_StepRunsTheCommandInFront : day.pending = [] := rfl

theorem meets_ResetLeavesTheResetState :
    (∀ straps, Instr.resetAsserted ≠ .reset straps) ∧ Runs .resetAsserted day heldInReset :=
  ⟨fun _ h => (nomatch h), rfl⟩

theorem meets_NothingMovesWhileResetIsHeld :
    heldInReset.resetHeld = true ∧
      ∀ c ∈ [Instr.secondTick, .clockFree, .silenceExpiry 310, .boardRefresh 6, .loadClass (cmd []), .resetAsserted],
        (∀ straps, c ≠ .reset straps) ∧ (∀ p, c ≠ .linkDown p) ∧ ∀ p, c ≠ .linkUp p := by
  refine ⟨rfl, ?_⟩
  simp

theorem meets_FramesThatReachNoBlock :
    Receives .field day ∧ Receives .park day ∧ LongEnough (raw 0x0800 3).payload.length ∧
      (raw 0x0800 3).ethType ≠ 0x9C5E ∧ LongEnough (raw 0x9C5E 2).payload.length ∧ (raw 0x9C5E 2).ethType = 0x9C5E ∧
      (raw 0x9C5E 2).payload.head? ≠ some 0x03 ∧
      ((raw 0x9C5E 3).payload = 0x03 :: 0x00 :: List.replicate 44 0 ∧ (0x00 : Byte).toNat ∉ [0x01, 0x02, 0x03, 0x04,
        0x10, 0x11, 0x12, 0x13, 0x14, 0x30, 0x31, 0x40]) ∧
      ((fld 4000 [1, 0, 7]).port = .field ∧ LongEnough (8 + (fld 4000 [1, 0, 7]).rest.length) ∧
        (fld 4000 [1, 0, 7]).dest.toNat = ownStation day) ∧
      (prk 4093 [1, 0, 7]).dest.toNat ≠ ownStation day :=
  ⟨receives (by decide +kernel), receives (by decide +kernel), by decide +kernel⟩

theorem meets_FramesThatReachNoBlock_passing :
    (Receives (prk 4095 []).port fresh ∧ LongEnough (8 + (prk 4095 []).rest.length) ∧ fresh.device = .unconfigured) ∧
      (Receives (fld 301 []).port day ∧ (fld 301 []).port = .field) ∧
      (BoardArrives (prk 4095 (w4 129600)) day ∧ 129599 < u32At (bodyOf (prk 4095 (w4 129600))) 0) ∧
      (BoardArrives (prk 4095 [0, 0, 0]) day ∧ (bodyOf (prk 4095 [0, 0, 0])).length ≠ 4) ∧
      BoardArrives { prk 4095 [] with bodyLen := 53 } day ∧ ¬ EnvelopeFits { prk 4095 [] with bodyLen := 53 } :=
  ⟨⟨receives (by decide +kernel), by decide +kernel⟩, ⟨receives (by decide +kernel), by decide +kernel⟩,
    ⟨⟨receives (by decide +kernel), by decide +kernel, by decide +kernel, by decide +kernel⟩, by decide +kernel⟩,
    ⟨⟨receives (by decide +kernel), by decide +kernel, by decide +kernel, by decide +kernel⟩, by decide +kernel⟩,
    ⟨receives (by decide +kernel), by decide +kernel, by decide +kernel, by decide +kernel⟩, by decide +kernel⟩

/-- The day with this many frames in each queue of the field port. -/
def filled (transit origin : Nat) : State :=
  { day with field := { day.field with
      transit := List.replicate transit (raw 0x0800 3),
      origin := List.replicate origin { ethDst := 9, source := 4094, dest := 620, body := .release 4 } } }

/-- The field port with its link DOWN. -/
def fieldDown : State := { day with field := { day.field with linkUp := false } }

theorem meets_FrameJoinsItsQueueOrIsCounted :
    ((portUnit .field (filled 63 15)).linkUp = true ∧ (portUnit .field (filled 63 15)).transit.length < 64 ∧
      (portUnit .field (filled 63 15)).origin.length < 16) ∧
      (64 ≤ (portUnit .field (filled 64 16)).transit.length ∧ 16 ≤ (portUnit .field (filled 64 16)).origin.length) ∧
      (portUnit .field fieldDown).linkUp = false := by
  decide +kernel

/-- The day with reports waiting behind a park origin queue of some length. -/
def reporting (waiting origin : Nat) : State :=
  { day with
    reportQueue := List.replicate waiting { kind := .bookFull, subject := 0, detail := 0, parkSecond := none },
    park := { day.park with
      origin := List.replicate origin { ethDst := 9, source := 4094, dest := 4095, body := .release 4 } } }

theorem meets_ReportsAreMaskedQueuedAndMoved :
    reportLevel .clockJump < day.reportMask ∧
      (day.reportMask ≤ reportLevel .releaseTimeout ∧ 32 ≤ (reporting 32 8).reportQueue.length) ∧
      (day.reportMask ≤ reportLevel .releaseTimeout ∧ (reporting 31 8).reportQueue.length < 32) ∧
      day.reportQueue = [] ∧ 8 ≤ (reporting 1 8).park.origin.length ∧
      ((reporting 1 7).reportQueue = { kind := .bookFull, subject := 0, detail := 0, parkSecond := none } :: [] ∧
        (reporting 1 7).park.origin.length < 8) := by
  decide +kernel

theorem meets_CountersHoldAndAreRead : Commanded (cmd [1]) day ∧ 1 ≤ (params (cmd [1])).length :=
  ⟨commanded (by decide +kernel), by decide +kernel⟩

theorem meets_LinksAndTheArbiter :
    (day.resetHeld = false ∧ (portUnit .park day).linkUp = true) ∧
      (fieldDown.resetHeld = false ∧ (portUnit .field fieldDown).linkUp = false) ∧
      (queued.resetHeld = false ∧ (portUnit .field queued).linkUp = true ∧ (portUnit .field queued).sending = none ∧
        (portUnit .field queued).transit = raw 0x0800 3 :: [] ∧ (portUnit .field queued).turn = .transit) ∧
      ((filled 1 0).resetHeld = false ∧ (portUnit .field (filled 1 0)).sending = none ∧
        (portUnit .field (filled 1 0)).transit = raw 0x0800 3 :: [] ∧ (portUnit .field (filled 1 0)).origin = []) ∧
      ((filled 0 1).resetHeld = false ∧ (portUnit .field (filled 0 1)).sending = none ∧
        (portUnit .field (filled 0 1)).origin = { ethDst := 9, source := 4094, dest := 620, body := .release 4 } :: [] ∧
        (portUnit .field (filled 0 1)).transit = []) ∧
      ((portUnit .field day).transit = [] ∧ (portUnit .field day).origin = []) := by
  decide +kernel

/-! ### Stations -/

/-- A COUNT whose body length field is one beyond the frame. -/
def tooLong : LineRx := { fld 301 (w2 5) with bodyLen := 53 }

theorem meets_FailedFieldFramesAreCountedOnly :
    countRow ∈ fieldRows ∧
      (Judged tooLong day ∧ firstFailure countRow tooLong day .malformed) ∧
      (Judged (fld 300 (w2 5)) day ∧ firstFailure countRow (fld 300 (w2 5)) day .unknownStation) ∧
      (Judged (fld 501 (w2 5)) day ∧ firstFailure countRow (fld 501 (w2 5)) day .roleMismatch) ∧
      (Judged (fld 301 [0, 0, 5]) day ∧ firstFailure countRow (fld 301 [0, 0, 5]) day .malformed) :=
  ⟨.head _, ⟨judged (by decide +kernel), .inl (by decide +kernel)⟩,
    ⟨judged (by decide +kernel), .inr (.inl (by decide +kernel))⟩,
    ⟨judged (by decide +kernel), .inr (.inr ⟨by decide +kernel, stn .kiosk none, by decide +kernel,
      .inl (by decide +kernel)⟩)⟩,
    judged (by decide +kernel), .inr (.inr ⟨by decide +kernel, stn .entryCounter (some 47), by decide +kernel,
      .inr ⟨by decide +kernel, show ¬ (bodyOf (fld 301 [0, 0, 5])).length = 2 by decide +kernel, rfl⟩⟩)⟩

theorem meets_FailedFieldFramesAreCountedOnly_forwarded :
    (Receives (fld 301 (w2 5)).port fresh ∧ LongEnough (8 + (fld 301 (w2 5)).rest.length) ∧
      fresh.device = .unconfigured) ∧
      Receives (line .park 301 4094 (w2 5)).port day ∧ LongEnough (8 + (line .park 301 4094 (w2 5)).rest.length) ∧
        (line .park 301 4094 (w2 5)).port = .park :=
  ⟨⟨receives (by decide +kernel), by decide +kernel⟩, receives (by decide +kernel), by decide +kernel⟩

/-- Each of the nine rows accepts a frame. -/
theorem meets_AcceptedFramesBringTheirStationLive :
    Accepted countRow (fld 301 (w2 65535)) day (stn .entryCounter (some 47)) ∧
      Accepted dispatchRow (fld 901 [30, 28]) day (stn .rideControl (some 47)) ∧
      Accepted rideStateRow (fld 901 [3]) day (stn .rideControl (some 47)) ∧
      Accepted releasedRow (fld 620 [4]) day (stn .mergeGate (some 47)) ∧
      Accepted passReqRow (fld 501 (w2 7 ++ [47, 3] ++ w2 0xFFFF ++ tok 0x41)) day (stn .kiosk none) ∧
      Accepted takeRow (fld 501 (w2 7 ++ w2 311 ++ tok 0x41)) day (stn .kiosk none) ∧
      Accepted dropRow (fld 501 (w2 7 ++ w2 311)) day (stn .kiosk none) ∧
      Accepted cancelRow (fld 501 (w2 7 ++ [47] ++ tok 0x41)) day (stn .kiosk none) ∧
      Accepted redeemRow (fld 610 (w2 7 ++ [2] ++ tok 0x41)) day (stn .returnScanner (some 47)) ∧
      (stn .kiosk none).supervision ≠ .silent ∧ { stn .kiosk none with supervision := .silent }.supervision = .silent :=
  ⟨accepted (by decide +kernel) (show (bodyOf _).length = 2 by decide +kernel),
    accepted (by decide +kernel) (show (bodyOf _).length = 2 by decide +kernel),
    accepted (by decide +kernel)
      (show (bodyOf _).length = 1 ∧ 1 ≤ u8At (bodyOf _) 0 ∧ u8At (bodyOf _) 0 ≤ 3 by decide +kernel),
    accepted (by decide +kernel) (show (bodyOf _).length = 1 by decide +kernel),
    accepted (by decide +kernel) (show (bodyOf _).length = 7 + u8At (bodyOf _) 6 by decide +kernel),
    accepted (by decide +kernel) (show (bodyOf _).length = 5 + u8At (bodyOf _) 4 by decide +kernel),
    accepted (by decide +kernel) (show (bodyOf _).length = 4 by decide +kernel),
    accepted (by decide +kernel) (show (bodyOf _).length = 4 + u8At (bodyOf _) 3 by decide +kernel),
    accepted (by decide +kernel) (show (bodyOf _).length = 4 + u8At (bodyOf _) 3 by decide +kernel), by decide +kernel⟩

/-- A LIVE boarding counter whose deadline is 1000. -/
def liveStation : Station := { stn .boardCounter (some 47) with supervision := .live, deadline := some 1000 }

theorem meets_SilenceDeadlineMakesAStationSilent :
    (day.resetHeld = false ∧ day.device ≠ .unconfigured ∧
      tblGet ({ day with stations := [(310, liveStation)] } : State).stations 310 = some liveStation ∧
      liveStation.supervision = .live ∧ liveStation.deadline = some 1000 ∧ 1000 ≤ day.clock.elapsed) ∧
      ((stn .kiosk none).supervision ≠ .live ∧ tblGet day.stations 501 = some (stn .kiosk none)) ∧
      (∀ d, liveStation.deadline = some d → (dayE 999 day).clock.elapsed < d) ∧
      (some 47 = liveStation.binding ∧ rideBound liveStation.role = true ∧ 47 < day.rides.length) :=
  ⟨by decide +kernel, by decide +kernel, fun d h => by cases h; decide +kernel, by decide +kernel⟩

/-- The day with this many stations. -/
def crowded (n : Nat) : State := { day with stations := (List.range n).map (fun k => (k + 1, stn .kiosk none)) }

theorem meets_StationTableIsLoadedAndEmptied :
    (∀ p ∈ [w2 4093 ++ [7, 63] ++ w2 3601, w2 1 ++ [1, 47] ++ w2 10, w2 902 ++ [5, 255] ++ w2 0],
      LongEnough (9 + (cmd p).tail.length) ∧ 6 ≤ (params (cmd p)).length ∧
        StationNumberOk (u16At (params (cmd p)) 0) day ∧
        (roleOfCode (u8At (params (cmd p)) 2)).any (fun r => decide (BindingFits r (u8At (params (cmd p)) 3))) ∧
        day.stations.length < 512) ∧
      Commanded (cmd (w2 4093 ++ [7, 63] ++ w2 3601)) day ∧
      (∀ p ∈ [w2 4094 ++ [7, 63] ++ w2 0, w2 0 ++ [1, 47] ++ w2 10, w2 4095 ++ [1, 47] ++ w2 10],
        ¬ StationNumberOk (u16At (params (cmd p)) 0) day) ∧
      (roleOfCode (u8At (params (cmd (w2 9 ++ [8, 0] ++ w2 0))) 2) = none ∧
        roleOfCode (u8At (params (cmd (w2 9 ++ [0, 0] ++ w2 0))) 2) = none) ∧
      (roleOfCode 7 = some .board ∧ ¬ BindingFits .board 64 ∧ roleOfCode 1 = some .entryCounter ∧
        ¬ BindingFits .entryCounter 48) :=
  ⟨by decide +kernel, commanded (by decide +kernel), by decide +kernel, by decide +kernel, by decide +kernel⟩

/-- The only gate of ride 47, SILENT, is loaded again as its gate. -/
theorem meets_StationTableIsLoadedAndEmptied_gate :
    Commanded (cmd (w2 620 ++ [4, 47] ++ w2 60)) (gateSilent 12) ∧
      tblGet (gateSilent 12).stations (u16At (params (cmd (w2 620 ++ [4, 47] ++ w2 60))) 0) =
        some { stn .mergeGate (some 47) with supervision := .silent } ∧
      (rideAt 47 (gateSilent 12)).lane.gateSilence = true ∧
      (rideAt 47 (gateSilent 12)).est.stale = counterSilence 47 (gateSilent 12) ∧
      (rideAt 47 (gateSilent 12)).noControl = controlSilence 47 (gateSilent 12) ∧
      gateSilence 47 { gateSilent 12 with
        stations := tblSet (gateSilent 12).stations 620 { freshStation .mergeGate 47 60 with binding := none } } = false :=
  ⟨commanded (by decide +kernel), by decide +kernel⟩

theorem meets_StationTableIsLoadedAndEmptied_full :
    (Commanded (cmd (w2 513 ++ [5, 0] ++ w2 0)) (crowded 512) ∧ 6 ≤ (params (cmd (w2 513 ++ [5, 0] ++ w2 0))).length ∧
      roleOfCode (u8At (params (cmd (w2 513 ++ [5, 0] ++ w2 0))) 2) = some .kiosk ∧
      StationNumberOk 513 (crowded 512) ∧ BindingFits .kiosk 0 ∧ u16At (params (cmd (w2 513 ++ [5, 0] ++ w2 0))) 0 = 513 ∧
      tblGet (crowded 512).stations 513 = none ∧ 512 ≤ (crowded 512).stations.length) ∧
      (tblGet (crowded 512).stations 512).isSome ∧ (crowded 511).stations.length < 512 :=
  ⟨⟨commanded (by decide +kernel), by decide +kernel⟩, by decide +kernel⟩

theorem meets_StationTableIsLoadedAndEmptied_removed :
    (Commanded (cmd (w2 301)) day ∧ 2 ≤ (params (cmd (w2 301))).length ∧
      (tblGet day.stations (u16At (params (cmd (w2 301))) 0)).isSome) ∧
      Commanded (cmd (w2 300)) day ∧ tblGet day.stations (u16At (params (cmd (w2 300))) 0) = none :=
  ⟨⟨commanded (by decide +kernel), by decide +kernel⟩, commanded (by decide +kernel), by decide +kernel⟩

/-! ### Park time -/

theorem meets_FirstTimeFrameSetsTheClock :
    (TimeFrame (prk 4095 (w4 129599)) unset 129599 ∧ TimeFrame (prk 4095 (w4 0)) unset 0) ∧
      unset.clock.state = .unset ∧ unset.clock.parkTime = none ∧ unset.clock.highMark = none :=
  ⟨⟨timeFrame (by decide +kernel), timeFrame (by decide +kernel)⟩, by decide +kernel⟩

/-- The day with a pending jump of ten seconds ago. -/
def jumping (v : Nat) : State := { day with clock := { day.clock with pendingJump := some (v, 990) } }

theorem meets_TimeFramesStepJumpOrPend_step :
    (TimeFrame (prk 4095 (w4 39030)) day 39030 ∧ Near 39030 39000) ∧
      (TimeFrame (prk 4095 (w4 38970)) day 38970 ∧ Near 38970 39000) ∧
      (day.clock.state = .synced ∧ day.clock.parkTime = some 39000 ∧ day.clock.highMark = some 650 ∧
        39030 / 60 ≤ 650) ∧
      TimeFrame (prk 4095 (w4 39031)) day 39031 ∧ ¬ Near 39031 39000 ∧
      ¬ Confirms 39031 day.clock.elapsed day.clock.pendingJump :=
  ⟨⟨timeFrame (by decide +kernel), by decide +kernel⟩, ⟨timeFrame (by decide +kernel), by decide +kernel⟩,
    by decide +kernel, timeFrame (by decide +kernel), by decide +kernel,
    fun ⟨_, _, h, _⟩ => absurd (show (none : Option (Nat × Nat)) = some _ from h) nofun⟩

theorem meets_TimeFramesStepJumpOrPend_jump :
    TimeFrame (prk 4095 (w4 38015)) (jumping 38000) 38015 ∧ ¬ Near 38015 39000 ∧
      Confirms 38015 (jumping 38000).clock.elapsed (jumping 38000).clock.pendingJump ∧ 38015 / 60 ≤ 650 ∧
      TimeFrame (prk 4095 (w4 38016)) (jumping 38000) 38016 ∧
      ¬ Confirms 38016 (jumping 38000).clock.elapsed (jumping 38000).clock.pendingJump :=
  ⟨timeFrame (by decide +kernel), by decide +kernel, ⟨38000, 990, by decide +kernel⟩, by decide +kernel,
    timeFrame (by decide +kernel), fun ⟨v1, e1, h, _, late, _⟩ => by
      have e : (jumping 38000).clock.pendingJump = some (38000, 990) := rfl
      have now : (jumping 38000).clock.elapsed = 1000 := rfl
      rw [e] at h
      cases h
      rw [now] at late
      omega⟩

/-- Acceptances into a minute above the high mark: a step of a FREE clock, a step that arrives at 129599, a jump. -/
theorem meets_TimeFramesStepJumpOrPend_minutes :
    (TimeFrame (prk 4095 (w4 39060)) { dayP 39030 day with clock := { (dayP 39030 day).clock with state := .free } }
        39060 ∧ Near 39060 39030 ∧ 650 < 39060 / 60) ∧
      (TimeFrame (prk 4095 (w4 129599)) (dayP 129569 day) 129599 ∧ Near 129599 129569 ∧
        (dayP 129569 day).clock.highMark = some 2159) ∧
      TimeFrame (prk 4095 (w4 40015)) (jumping 40000) 40015 ∧ ¬ Near 40015 39000 ∧
      Confirms 40015 (jumping 40000).clock.elapsed (jumping 40000).clock.pendingJump ∧ 650 < 40015 / 60 :=
  ⟨⟨timeFrame (by decide +kernel), by decide +kernel⟩, ⟨timeFrame (by decide +kernel), by decide +kernel⟩,
    timeFrame (by decide +kernel), by decide +kernel, ⟨40000, 990, by decide +kernel⟩, by decide +kernel⟩

theorem meets_SecondsAdvanceBothCounts :
    (day.resetHeld = false ∧ (dayE 4294967294 day).clock.elapsed < 4294967295 ∧
      (dayE 4294967295 day).clock.elapsed = 4294967295) ∧
      ((dayP 39058 day).clock.parkTime = some 39058 ∧ (dayP 39058 day).clock.highMark = some 650 ∧
        39058 + 1 < 129599 ∧ (39058 + 1) / 60 ≤ 650) ∧
      ((dayP 39059 day).clock.parkTime = some 39059 ∧ (dayP 39059 day).clock.highMark = some 650 ∧
        (39059 + 1) / 60 = 650 + 1) ∧
      ((dayP 129598 day).clock.parkTime = some 129598 ∧ (dayP 129598 day).clock.highMark = some 2159) ∧
      unset.clock.parkTime = none ∧ (dayP 129599 day).clock.parkTime = some 129599 := by
  decide +kernel

/-- The day with a clock that runs FREE. -/
def freeRunning : State := { day with clock := { day.clock with state := .free } }

theorem meets_ClockGoesFreeAndAdrift :
    (day.resetHeld = false ∧ day.clock.syncMark = some 1000 ∧ day.clock.state = .synced ∧
      1000 + 120 ≤ (dayE 1120 day).clock.elapsed) ∧
      (freeRunning.clock.state = .free ∧ 1000 + 1800 ≤ (dayE 2800 freeRunning).clock.elapsed) ∧
      (∀ m, (dayE 1119 day).clock.syncMark = some m → (dayE 1119 day).clock.elapsed < m + 120) ∧
      (∀ m, (dayE 2799 freeRunning).clock.syncMark = some m → (dayE 2799 freeRunning).clock.elapsed < m + 1800) ∧
      freeRunning.clock.state ≠ .synced ∧ day.clock.state ≠ .free :=
  ⟨by decide +kernel, by decide +kernel, fun m h => by cases h; decide +kernel, fun m h => by cases h; decide +kernel,
    by decide +kernel⟩

/-! ### Rides -/

/-- Station 902 is bound to a ride that is not configured. -/
theorem boundToNone : BoundToNone (stn .rideControl (some 3)) day := fun i h => by
  cases h
  exact .inr (by decide +kernel)

/-- A RIDESTATE about ride 47. -/
theorem rideStateAbout {code : Nat} {s : State}
    (h : ((s.resetHeld = false ∧ (portUnit .field s).linkUp = true) ∧ (fld 901 [code]).port = .field ∧
      LongEnough (8 + (fld 901 [code]).rest.length) ∧ s.device ≠ .unconfigured) ∧ EnvelopeFits (fld 901 [code]) ∧
      tblGet s.stations (fld 901 [code]).source.toNat = some (stn .rideControl (some 47)) ∧
      (stn .rideControl (some 47)).role ∈ rideStateRow.roles)
    (b : (bodyOf (fld 901 [code])).length = 1 ∧ 1 ≤ u8At (bodyOf (fld 901 [code])) 0 ∧
      u8At (bodyOf (fld 901 [code])) 0 ≤ 3)
    (c : (rideAt 47 s).cfg = some cfg) :
    AboutRide rideStateRow (fld 901 [code]) s (stn .rideControl (some 47)) 47 cfg :=
  about (accepted h b) ⟨rfl, by decide, c⟩

theorem meets_OutagesOpenCloseAndMerge :
    ([{ start := 1, stop := some 2 }, { start := 3, stop := some 4 }] : List Outage).length < 3 ∧
      ∀ o ∈ ([{ start := 1, stop := some 2 }] : List Outage), o.stop ≠ none := by
  decide

/-- The day with ride 47 in another state. -/
def inState (state : RideState) : State := dayR (fun r => { r with state := state })

theorem meets_RideStateFramesMoveTheRide :
    (AboutRide rideStateRow (fld 901 [2]) day (stn .rideControl (some 47)) 47 cfg ∧ Asks (u8At (bodyOf (fld 901 [2])) 0) .down ∧
      (rideAt 47 day).state ≠ .closed ∧ (rideAt 47 day).state ≠ .down) ∧
      (AboutRide rideStateRow (fld 901 [3]) (inState .held) (stn .rideControl (some 47)) 47 cfg ∧
        Asks (u8At (bodyOf (fld 901 [3])) 0) .held ∧ (rideAt 47 (inState .held)).state = .held) ∧
      (AboutRide rideStateRow (fld 901 [1]) (inState .closed) (stn .rideControl (some 47)) 47 cfg ∧
        (rideAt 47 (inState .closed)).state = .closed) ∧
      Accepted rideStateRow (fld 902 [1]) day (stn .rideControl (some 3)) ∧ BoundToNone (stn .rideControl (some 3)) day :=
  ⟨⟨rideStateAbout (by decide +kernel) (by decide +kernel) (by decide +kernel), by decide +kernel⟩,
    ⟨rideStateAbout (by decide +kernel) (by decide +kernel) (by decide +kernel), by decide +kernel⟩,
    ⟨rideStateAbout (by decide +kernel) (by decide +kernel) (by decide +kernel), by decide +kernel⟩,
    accepted (by decide +kernel)
      (show (bodyOf _).length = 1 ∧ 1 ≤ u8At (bodyOf _) 0 ∧ u8At (bodyOf _) 0 ≤ 3 by decide +kernel), boundToNone⟩

/-- The day with a full outage list. -/
def fullOutages : State :=
  dayR (fun r => { r with outages := [{ start := 37000, stop := some 37060 }, { start := 37100, stop := some 37200 },
    { start := 37300, stop := some 37400 }, { start := 38000, stop := some 38060 }] })

/-- The day with a ride in a state, and in its lane all that a release needs but that state. -/
def readyToRelease (state : RideState) : State :=
  dayR (fun r => { r with state := state, lane := { r.lane with occupancy := 1, mergeCounter := 12 } })

/-- R48, R52, R157: a full outage list merges and reports first; an entry to OPEN sends the release that was due. -/
theorem test_ride_state_entries :
    after (.rideState (fld 901 [2])) { fullOutages with reportMask := 0 }
        (fun t => (t.park.origin.map (·.body), (r47 t).outages)) =
      some ([.report { kind := .outageMerged, subject := 47, detail := 616, parkSecond := some 39000 },
          .report { kind := .rideState, subject := 47, detail := 0x0103, parkSecond := some 39000 }],
        [{ start := 37000, stop := some 37200 }, { start := 37300, stop := some 37400 },
          { start := 38000, stop := some 38060 }, { start := 39000, stop := none }]) ∧
      after (.rideState (fld 901 [1])) (readyToRelease .held) (fun t => t.field.origin.map (·.body)) =
        some [.release 1] := by
  decide +kernel

theorem meets_RideStateFramesMoveTheRide_entries :
    (AboutRide rideStateRow (fld 901 [2]) fullOutages (stn .rideControl (some 47)) 47 cfg ∧
      Asks (u8At (bodyOf (fld 901 [2])) 0) .down ∧ (rideAt 47 fullOutages).state ≠ .closed ∧
      (rideAt 47 fullOutages).state ≠ .down ∧ 4 ≤ (rideAt 47 fullOutages).outages.length) ∧
      AboutRide rideStateRow (fld 901 [1]) (readyToRelease .held) (stn .rideControl (some 47)) 47 cfg ∧
      Asks (u8At (bodyOf (fld 901 [1])) 0) .opened ∧ (rideAt 47 (readyToRelease .held)).state ≠ .closed ∧
      (rideAt 47 (readyToRelease .held)).state ≠ .opened ∧
      releaseCondition { rideAt 47 (readyToRelease .held) with state := .opened } = true :=
  ⟨⟨rideStateAbout (by decide +kernel) (by decide +kernel) (by decide +kernel), by decide +kernel⟩,
    rideStateAbout (by decide +kernel) (by decide +kernel) (by decide +kernel), by decide +kernel⟩

/-- A counter of ride 47 with baseline 100. -/
def based (role : Role) : Station := { stn role (some 47) with baseline := some 100 }

/-- The day with it as station 301 and Q = 9000. -/
def counting (role : Role) : State :=
  { dayR (fun r => { r with q := 9000 }) with stations := [(301, based role)] }

theorem meets_CountFramesMoveTheQueue_baseline :
    (Accepted countRow (fld 301 (w2 5)) day (stn .entryCounter (some 47)) ∧
      (stn .entryCounter (some 47)).baseline = none) ∧
      (Accepted countRow (fld 301 (w2 100)) (counting .entryCounter) (based .entryCounter) ∧
        (based .entryCounter).baseline = some (u16At (bodyOf (fld 301 (w2 100))) 0)) ∧
      { counting .entryCounter with device := .closing }.device ≠ .day :=
  ⟨⟨accepted (by decide +kernel) (show (bodyOf _).length = 2 by decide +kernel), by decide +kernel⟩,
    ⟨accepted (by decide +kernel) (show (bodyOf _).length = 2 by decide +kernel), by decide +kernel⟩, by decide +kernel⟩

theorem meets_CountFramesMoveTheQueue :
    (AboutRide countRow (fld 301 (w2 2101)) (counting .entryCounter) (based .entryCounter) 47 cfg ∧
      2000 < deltaOf (u16At (bodyOf (fld 301 (w2 2101))) 0) 100) ∧
      (AboutRide countRow (fld 301 (w2 2100)) (counting .entryCounter) (based .entryCounter) 47 cfg ∧
        deltaOf (u16At (bodyOf (fld 301 (w2 2100))) 0) 100 = 2000) ∧
      (AboutRide countRow (fld 301 (w2 101)) (counting .boardCounter) (based .boardCounter) 47 cfg ∧
        deltaOf (u16At (bodyOf (fld 301 (w2 101))) 0) 100 = 1) ∧
      (counting .entryCounter).device = .day ∧ (based .boardCounter).baseline = some 100 :=
  ⟨⟨about (accepted (by decide +kernel) (show (bodyOf _).length = 2 by decide +kernel)) (by decide +kernel),
      by decide +kernel⟩,
    ⟨about (accepted (by decide +kernel) (show (bodyOf _).length = 2 by decide +kernel)) (by decide +kernel),
      by decide +kernel⟩,
    ⟨about (accepted (by decide +kernel) (show (bodyOf _).length = 2 by decide +kernel)) (by decide +kernel),
      by decide +kernel⟩, by decide +kernel⟩

theorem meets_RidesOpenAndClose :
    (NamesRide (cmd [47]) (inState .closed) 1 47 cfg ∧ (inState .closed).device = .day ∧
      (rideAt 47 (inState .closed)).state = .closed ∧ classRate cfg.classNo (inState .closed) = 1200) ∧
      (NamesRide (cmd [47]) day 1 47 cfg ∧ (rideAt 47 day).state ≠ .closed ∧ tblWf day.holds) ∧
      NamesRide (cmd [47]) { inState .closed with classes := List.replicate 16 0 } 1 47 cfg ∧
      classRate cfg.classNo { inState .closed with classes := List.replicate 16 0 } = 0 :=
  ⟨⟨namesRide (commanded (by decide +kernel)) (by decide +kernel), by decide +kernel⟩,
    ⟨namesRide (commanded (by decide +kernel)) (by decide +kernel), by decide +kernel⟩,
    namesRide (commanded (by decide +kernel)) (by decide +kernel), by decide +kernel⟩

theorem meets_RidesOpenAndClose_lanes :
    (NamesRide (cmd [47]) (readyToRelease .closed) 1 47 cfg ∧ (readyToRelease .closed).device = .day ∧
      (rideAt 47 (readyToRelease .closed)).state = .closed ∧ classRate cfg.classNo (readyToRelease .closed) = 1200) ∧
      NamesRide (cmd [47]) (withHold 0 (hold 0x41 690 3) day) 1 47 cfg ∧
      (rideAt 47 (withHold 0 (hold 0x41 690 3) day)).state ≠ .closed ∧
      tblWf (withHold 0 (hold 0x41 690 3) day).holds ∧ guestsHeld 47 690 (withHold 0 (hold 0x41 690 3) day) = 3 :=
  ⟨⟨namesRide (commanded (by decide +kernel)) (by decide +kernel), by decide +kernel⟩,
    namesRide (commanded (by decide +kernel)) (by decide +kernel), by decide +kernel⟩

theorem meets_SetQueueSetsBothOccupancies :
    NamesRide (cmd ([47] ++ w2 9999 ++ w2 0xFFFF)) day 5 47 cfg ∧
      u16At (params (cmd ([47] ++ w2 9999 ++ w2 0xFFFF))) 1 = 9999 ∧
      u16At (params (cmd ([47] ++ w2 9999 ++ w2 0xFFFF))) 3 = 0xFFFF ∧
      NamesRide (cmd ([47] ++ w2 300 ++ w2 1)) day 5 47 cfg ∧ (rideAt 47 day).q ≠ 300 ∧
      (rideAt 47 day).lane.occupancy = 0 :=
  ⟨namesRide (commanded (by decide +kernel)) (by decide +kernel), by decide +kernel, by decide +kernel,
    namesRide (commanded (by decide +kernel)) (by decide +kernel), by decide +kernel⟩

/-! ### Configuration -/

/-- A LOAD_RIDE of a ride index, class, window length and display step; its other fields at the ends of their ranges. -/
def load (i classNo length step : Nat) : MgmtRx :=
  cmd ([i, classNo, length, 50, 120, 30, 60, step, 30, 64, 16, 60, 16] ++ w2 300)

theorem meets_LoadRideConfiguresARide :
    (Commanded (load 48 0 5 1) day ∧ 15 ≤ (params (load 48 0 5 1)).length ∧ 47 < u8At (params (load 48 0 5 1)) 0) ∧
      (¬ FieldsCheck (load 46 16 5 1) ∧ ¬ FieldsCheck (load 46 0 25 1) ∧ ¬ FieldsCheck (load 46 0 5 2)) ∧
      (LoadsRide (load 46 15 30 10) day 46 ∧ FieldsCheck (load 46 15 30 10) ∧
        classRate (loadedClass (load 46 15 30 10)) day = 0) ∧
      (LoadsRide (load 46 0 5 1) day 46 ∧ FieldsCheck (load 46 0 5 1) ∧
        classRate (loadedClass (load 46 0 5 1)) day = 1200 ∧ (rideAt 46 day).cfg = none ∧ 46 < day.rides.length) :=
  ⟨⟨commanded (by decide +kernel), by decide +kernel⟩, by decide +kernel,
    ⟨⟨commanded (by decide +kernel), by decide +kernel, by decide +kernel, by decide +kernel⟩, by decide +kernel⟩,
    ⟨commanded (by decide +kernel), by decide +kernel, by decide +kernel, by decide +kernel⟩, by decide +kernel⟩

theorem meets_LoadRideConfiguresARide_shape :
    LoadsRide (load 47 0 5 1) day 47 ∧ FieldsCheck (load 47 0 5 1) ∧
      classRate (loadedClass (load 47 0 5 1)) day ≠ 0 ∧ ¬ KeepsShapeInDay (load 47 0 5 1) 47 day :=
  ⟨⟨commanded (by decide +kernel), by decide +kernel, by decide +kernel, by decide +kernel⟩, by decide +kernel,
    by decide +kernel, fun h => absurd (h (by decide +kernel) (by decide +kernel) cfg (by decide +kernel)).2
      (by decide +kernel)⟩

theorem meets_LoadRideHandsItsChangesOn :
    LoadsRide (load 47 0 15 5) day 47 ∧ FieldsCheck (load 47 0 15 5) ∧
      classRate (loadedClass (load 47 0 15 5)) day = 1200 ∧ KeepsShapeInDay (load 47 0 15 5) 47 day ∧
      (rideAt 47 day).cfg = some cfg :=
  ⟨⟨commanded (by decide +kernel), by decide +kernel, by decide +kernel, by decide +kernel⟩, by decide +kernel,
    by decide +kernel, fun _ _ old h => by
      have e : (rideAt 47 day).cfg = some cfg := by decide +kernel
      rw [e] at h
      cases h
      decide +kernel, by decide +kernel⟩

/-- A changed M, K and queue base under the same display step; a changed display step under the same M, K and base. -/
theorem meets_LoadRideHandsItsChangesOn_fields :
    (cfg.displayStep = loadedStep (load 47 0 15 5) ∧ cfg.threshold ≠ (storedFields (load 47 0 15 5)).threshold ∧
      cfg.batch ≠ (storedFields (load 47 0 15 5)).batch ∧
      cfg.queueBase ≠ (storedFields (load 47 0 15 5)).queueBase) ∧
      cfg.displayStep ≠ loadedStep (cmd ([47, 0, 15, 25, 30, 10, 15, 10, 3, 12, 4, 20, 4] ++ w2 60)) ∧
      (storedFields (cmd ([47, 0, 15, 25, 30, 10, 15, 10, 3, 12, 4, 20, 4] ++ w2 60))).threshold = cfg.threshold ∧
      (storedFields (cmd ([47, 0, 15, 25, 30, 10, 15, 10, 3, 12, 4, 20, 4] ++ w2 60))).batch = cfg.batch ∧
      storedFields (cmd ([47, 0, 15, 25, 30, 10, 15, 5, 3, 12, 4, 20, 4] ++ w2 60)) = cfg := by
  decide +kernel

/-- Outside DAY a ride may change its class and its window length. -/
theorem meets_LoadRideHandsItsChangesOn_closing :
    KeepsShapeInDay (load 47 0 30 10) 47 { day with device := .closing } ∧
      LoadsRide (load 47 0 30 10) { day with device := .closing } 47 :=
  ⟨fun h => (nomatch h), commanded (by decide +kernel), by decide +kernel, by decide +kernel, by decide +kernel⟩

theorem meets_UnloadRideClearsTheRecord :
    (NamesRide (cmd [47]) (inState .closed) 1 47 cfg ∧ (rideAt 47 (inState .closed)).state = .closed ∧
      ∀ e ∈ (inState .closed).passes, e.2.ride ≠ 47) ∧
      NamesRide (cmd [47]) day 1 47 cfg ∧ (rideAt 47 day).state ≠ .closed ∧
      ∃ e ∈ (withPass 0 (pass 0x41 690 1 0) (inState .closed)).passes, e.2.ride = 47 :=
  ⟨⟨namesRide (commanded (by decide +kernel)) (by decide +kernel), by decide +kernel⟩,
    namesRide (commanded (by decide +kernel)) (by decide +kernel), by decide +kernel,
    (0, pass 0x41 690 1 0), by decide +kernel, by decide +kernel⟩

theorem meets_LoadClassHandsTheRateOn :
    (Commanded (cmd ([16] ++ w2 60)) day ∧ 15 < u8At (params (cmd ([16] ++ w2 60))) 0) ∧
      (Commanded (cmd ([0] ++ w2 60)) day ∧ day.device = .day ∧
        ∃ r ∈ day.rides, ∃ c, r.cfg = some c ∧ c.classNo = u8At (params (cmd ([0] ++ w2 60))) 0 ∧ r.state ≠ .closed) ∧
      Commanded (cmd ([15] ++ w2 6001)) { day with device := .ready } ∧
      3 ≤ (params (cmd ([15] ++ w2 6001))).length ∧ u8At (params (cmd ([15] ++ w2 6001))) 0 = 15 ∧
      day.classes.length = 16 ∧ u16At (params (cmd ([15] ++ w2 6001))) 1 = 6001 ∧
      { day with device := .ready }.device ≠ .day :=
  ⟨⟨commanded (by decide +kernel), by decide +kernel⟩,
    ⟨commanded (by decide +kernel), by decide +kernel, ride, by decide +kernel, cfg, by decide +kernel⟩,
    commanded (by decide +kernel), by decide +kernel⟩

/-! ### The wait estimator -/

/-- The day with a dispatch mark for ride 47. -/
def marked (m : Nat) : State := dayR (fun r => { r with est := { r.est with mark := some m } })

/-- A sampled DISPATCH of 28 guests on 30 seats. -/
theorem sampled {s : State}
    (h : ((s.resetHeld = false ∧ (portUnit .field s).linkUp = true) ∧ (fld 901 [30, 28]).port = .field ∧
      LongEnough (8 + (fld 901 [30, 28]).rest.length) ∧ s.device ≠ .unconfigured) ∧ EnvelopeFits (fld 901 [30, 28]) ∧
      tblGet s.stations (fld 901 [30, 28]).source.toNat = some (stn .rideControl (some 47)) ∧
      (stn .rideControl (some 47)).role ∈ dispatchRow.roles)
    (c : (rideAt 47 s).cfg = some cfg ∧ s.device = .day ∧ (rideAt 47 s).state = .opened) :
    Sampled (fld 901 [30, 28]) s (stn .rideControl (some 47)) 47 cfg :=
  ⟨about (accepted h (show (bodyOf _).length = 2 by decide +kernel)) ⟨rfl, by decide, c.1⟩, c.2.1, .inl c.2.2⟩

theorem meets_TheFirstDispatchBeginsSampling :
    Sampled (fld 901 [30, 28]) day (stn .rideControl (some 47)) 47 cfg ∧
      (rideAt 47 (heardState (fld 901 [30, 28]) (stn .rideControl (some 47)) day)).est.mark = none :=
  ⟨sampled (by decide +kernel) (by decide +kernel), by decide +kernel⟩

theorem meets_DispatchesAreMergedOrSampled :
    (Sampled (fld 901 [30, 28]) (marked 99) (stn .rideControl (some 47)) 47 cfg ∧ cfg.spacing ≤ 60 ∧
      (rideAt 47 (heardState (fld 901 [30, 28]) (stn .rideControl (some 47)) (marked 99))).est.mark = some 99 ∧
      99 + 900 < (marked 99).clock.elapsed) ∧
      (Sampled (fld 901 [30, 28]) (marked 981) (stn .rideControl (some 47)) 47 cfg ∧
        1000 - 981 < max cfg.spacing 1) ∧
      (Sampled (fld 901 [30, 28]) (marked 980) (stn .rideControl (some 47)) 47 cfg ∧
        max cfg.spacing 1 ≤ 1000 - 980 ∧ 1000 - 100 ≤ 900) ∧
      (AboutRide dispatchRow (fld 901 [30, 28]) (inState .down) (stn .rideControl (some 47)) 47 cfg ∧
        (rideAt 47 (inState .down)).state = .down) ∧
      (Accepted dispatchRow (fld 902 [30, 28]) day (stn .rideControl (some 3)) ∧
        BoundToNone (stn .rideControl (some 3)) day) ∧
      Accepted dispatchRow (fld 901 [30, 28]) { day with device := .closing } (stn .rideControl (some 47)) :=
  ⟨⟨sampled (by decide +kernel) (by decide +kernel), by decide +kernel⟩,
    ⟨sampled (by decide +kernel) (by decide +kernel), by decide +kernel⟩,
    ⟨sampled (by decide +kernel) (by decide +kernel), by decide +kernel⟩,
    ⟨about (accepted (by decide +kernel) (show (bodyOf _).length = 2 by decide +kernel)) (by decide +kernel),
      by decide +kernel⟩,
    ⟨accepted (by decide +kernel) (show (bodyOf _).length = 2 by decide +kernel), boundToNone⟩,
    accepted (by decide +kernel) (show (bodyOf _).length = 2 by decide +kernel)⟩

theorem meets_TheStandbyRate : ride.cfg = some cfg ∧ cfg.batch ≠ 0 ∧ 0 < 1 ∧ 0 < 9999 := by decide

theorem meets_TheCandidate :
    (995 % 5 = 0 ∧ 995 ≤ 995 ∧ 995 < 995 + 5) ∧ (1000 % 5 = 0 ∧ 996 ≤ 1000 ∧ 1000 < 996 + 5) ∧
      (ride.cfg = some cfg ∧ ride.state = .opened ∧ ride.est.stale = false ∧
        { ride.est with firstPosting := true }.firstPosting = true) ∧
      { ride.est with posted := 0 }.posted + 5 ≤ candidateOf 5 ride.est.rawWait := by
  decide +kernel

theorem meets_EstimatesAndPostingRuns :
    (ride.cfg = some cfg ∧ standbyRateOf ride.est.throughput cfg.threshold cfg.batch ride.lane.occupancy = 1200) ∧
      Ride.reset.cfg = none ∧ { ride with state := .down }.state = .down ∧ { ride.est with stale := true }.stale = true ∧
      { ride with state := .held }.state = .held ∧ ride.est.firstPosting = false ∧
      postedCandidate cfg.displayStep ride.est.rawWait = 5 := by
  decide +kernel

/-! ### The window calendar -/

theorem meets_RingsRollAndAreRebuilt :
    ((rideAt 47 day).ring = { start := 645, capacity := 75, issued := 0, held := 0, mark := true } :: ride.ring.tail ∧
      659 < 645 + lengthOf 47 day ∧ 659 < 645 + 24 * lengthOf 47 day) ∧
      ((rideAt 47 day).cfg = some cfg ∧ ride.ring.tail.head?.map (·.start) = some (645 + cfg.windowLength) ∧
        645 + cfg.windowLength ≤ 660 ∧ 660 < 645 + 2 * cfg.windowLength ∧ 674 < 645 + 2 * cfg.windowLength ∧
        1004 < 645 + 24 * lengthOf 47 day ∧ tblWf day.holds) ∧
      (645 + 24 * cfg.windowLength ≤ 1005) ∧ (rideAt 46 day).ring = [] := by
  decide +kernel

/-- An event at 690 leaves three windows behind, one at 689 two; the ring's windows stand fifteen minutes apart. -/
theorem meets_RingsRollAndAreRebuilt_several :
    (645 + 3 * cfg.windowLength ≤ 690 ∧ 690 < 645 + (3 + 1) * cfg.windowLength) ∧
      (645 + 2 * cfg.windowLength ≤ 689 ∧ 689 < 645 + (2 + 1) * cfg.windowLength) ∧
      (690 ≠ 651 ∨ 690 < 645 + 24 * cfg.windowLength) ∧
      ∀ p v, (rideAt 47 day).ring[p]? = some v → v.start = 645 + p * cfg.windowLength := by
  refine ⟨by decide, by decide, by decide, fun p v h => ?_⟩
  have ring : (rideAt 47 day).ring = (List.range 24).map
      (fun p => { start := 645 + 15 * p, capacity := 75, issued := 0, held := 0, mark := true }) := by decide +kernel
  rw [ring, List.getElem?_map] at h
  by_cases small : p < 24
  · rw [List.getElem?_range small] at h
    obtain rfl := Option.some.inj h
    show 645 + 15 * p = 645 + p * 15
    omega
  · rw [List.getElem?_eq_none (by simpa using Nat.le_of_not_lt small)] at h
    exact absurd h nofun

theorem meets_TheOfferSearchAndTheNextReturn :
    ((rideAt 47 day).cfg = some cfg ∧ 0 < cfg.windowLength ∧
      max (nowMinute day + max cfg.minLead (rideAt 47 day).est.rawWait) ((none : Option Nat).getD 0) = 680) ∧
      ((rideAt 46 day).cfg = none ∧ (rideAt 47 (inState .held)).state ≠ .opened ∧
        { day.clock with state := .adrift }.state = .adrift) ∧
      ((rideAt 47 day).state = .opened ∧ cfg.passShare ≠ 0 ∧ day.clock.state ≠ .adrift ∧
        (rideAt 47 day).ring = ride.ring.take 3 ++ { start := 690, capacity := 75, issued := 0, held := 0, mark := true } ::
          ride.ring.drop 4 ∧ offerStart 47 none day ≤ 690 ∧
        ∀ v ∈ ride.ring.take 3, v.mark = true → v.start < offerStart 47 none day) := by
  decide +kernel

/-- A ride whose windows are all full has no next return. -/
theorem meets_TheOfferSearchAndTheNextReturn_full :
    ∀ w ∈ (rideAt 47 (dayR (fun r => { r with ring := r.ring.map (fun w => { w with mark := false }) }))).ring,
      w.mark = true → w.start < offerStart 47 none day := by
  decide +kernel

/-! ### The pass book -/

/-- The day with an ISSUED pass of token A for the window of 690. -/
def booked : State := withPass 5 (pass 0x41 690 3 1) day

theorem meets_TokensAndEntries :
    (([1, 2] : List Byte).length = ([1, 2] : List Byte).length ∧ tokenKey [1, 2] = tokenKey [1, 2]) ∧
      (¬ BadToken (bs [0x41, 0x41, 0x41, 0x41]) day ∧ ¬ BadToken (List.replicate 16 0x41) day) ∧
      TokensAtTheirKeys booked ∧ tblWf booked.passes := by
  decide +kernel

/-- An outage of the whole day. -/
def disruptedDay : State :=
  updRide 47 (fun r => { r with outages := [{ start := 0, stop := none }] }) (dayP 43200 booked)

theorem meets_PassesExpireAtTheirDeadline :
    tblWf booked.passes ∧
      (tblGet booked.passes 5 = some (pass 0x41 690 3 1) ∧ (rideAt 47 booked).cfg = some cfg ∧
        719 < lastMinute 690 (pass 0x41 690 3 1) cfg booked ∧ lastMinute 690 (pass 0x41 690 3 1) cfg booked ≤ 720) ∧
      (∃ o ∈ (rideAt 47 disruptedDay).outages, (o.start : Int) < lastMinute 690 (pass 0x41 690 3 1) cfg disruptedDay * 60 ∧
        ((690 : Nat) - cfg.earlyGrace : Int) * 60 < o.stop.getD (nowSecond disruptedDay)) ∧
      ¬ (∃ o ∈ (rideAt 47 booked).outages, (o.start : Int) < lastMinute 690 (pass 0x41 690 3 1) cfg booked * 60 ∧
        ((690 : Nat) - cfg.earlyGrace : Int) * 60 < o.stop.getD (nowSecond booked)) ∧
      (tblGet booked.passes 6 = none ∧ { pass 0x41 690 3 1 with state := .anytime }.state ≠ .issued) := by
  decide +kernel

/-- At the event of minute 720 the pass of 690 is examined, and found disrupted or not. -/
theorem meets_PassesExpireAtTheirDeadline_due :
    booked.passes.filter (fun e => dueAt 720 e.2 booked) = [(5, pass 0x41 690 3 1)] ∧
      booked.passes.filter (fun e => dueAt 719 e.2 booked) = [] ∧
      foundDisrupted (pass 0x41 690 3 1) booked = false ∧ foundDisrupted (pass 0x41 690 3 1) disruptedDay = true ∧
      booked.counters.expiries ≤ 65535 := by
  decide +kernel

/-- A CANCEL from kiosk 501 for a ride, by a token. -/
def cancelRx (i : Nat) (token : List Nat) : LineRx := fld 501 (w2 3 ++ [i] ++ token)

/-- It is accepted. -/
theorem cancelOk {s : State} {i : Nat} {token : List Nat}
    (h : ((s.resetHeld = false ∧ (portUnit .field s).linkUp = true) ∧ (cancelRx i token).port = .field ∧
      LongEnough (8 + (cancelRx i token).rest.length) ∧ s.device ≠ .unconfigured) ∧ EnvelopeFits (cancelRx i token) ∧
      tblGet s.stations (cancelRx i token).source.toNat = some (stn .kiosk none) ∧ (stn .kiosk none).role ∈ cancelRow.roles)
    (b : (bodyOf (cancelRx i token)).length = 4 + u8At (bodyOf (cancelRx i token)) 3) :
    Accepted cancelRow (cancelRx i token) s (stn .kiosk none) :=
  accepted h b

/-- A token of three bytes. -/
def shortToken : List Nat := [3, 0x41, 0x41, 0x41]

theorem meets_CancellationsEndAPass_refused :
    (Accepted cancelRow (cancelRx 47 (tok 0x41)) { day with device := .closing } (stn .kiosk none) ∧
      { day with device := .closing }.device ≠ .day) ∧
      (Accepted cancelRow (cancelRx 47 shortToken) day (stn .kiosk none) ∧
        BadToken (tokenOf 3 (bodyOf (cancelRx 47 shortToken))) day) ∧
      (Accepted cancelRow (cancelRx 48 (tok 0x41)) day (stn .kiosk none) ∧
        ¬ BadToken (tokenOf 3 (bodyOf (cancelRx 48 (tok 0x41)))) day ∧ 47 < u8At (bodyOf (cancelRx 48 (tok 0x41))) 2) ∧
      (Accepted cancelRow (cancelRx 47 (tok 0x41)) day (stn .kiosk none) ∧
        passOn (normalized (tokenOf 3 (bodyOf (cancelRx 47 (tok 0x41)))) day) 47 day = none) ∧
      (rideAt 46 day).cfg = none :=
  ⟨⟨cancelOk (by decide +kernel) (by decide +kernel), by decide +kernel⟩,
    ⟨cancelOk (by decide +kernel) (by decide +kernel), by decide +kernel⟩,
    ⟨cancelOk (by decide +kernel) (by decide +kernel), by decide +kernel⟩,
    ⟨cancelOk (by decide +kernel) (by decide +kernel), by decide +kernel⟩, by decide +kernel⟩

/-- The day with a whole pass of token A in entry 5. -/
def whole : State := withPass 5 (pass 0x41 690 3 0) day

theorem meets_CancellationsEndAPass :
    (Accepted cancelRow (cancelRx 47 (tok 0x41)) booked (stn .kiosk none) ∧
      passOn (normalized (tokenOf 3 (bodyOf (cancelRx 47 (tok 0x41)))) booked) 47 booked = some (5, pass 0x41 690 3 1) ∧
      0 < (pass 0x41 690 3 1).admitted) ∧
      (Accepted cancelRow (cancelRx 47 (tok 0x41)) (dayP 41399 whole) (stn .kiosk none) ∧ (dayP 41399 whole).device = .day ∧
        ¬ BadToken (tokenOf 3 (bodyOf (cancelRx 47 (tok 0x41)))) (dayP 41399 whole) ∧
        u8At (bodyOf (cancelRx 47 (tok 0x41))) 2 = 47 ∧ (rideAt 47 (dayP 41399 whole)).cfg ≠ none ∧
        passOn (normalized (tokenOf 3 (bodyOf (cancelRx 47 (tok 0x41)))) whole) 47 whole = some (5, pass 0x41 690 3 0) ∧
        (pass 0x41 690 3 0).state = .issued ∧ (pass 0x41 690 3 0).admitted = 0 ∧ nowMinute (dayP 41399 whole) < 690) ∧
      (690 ≤ nowMinute (dayP 41400 whole)) ∧
      (Commanded (cmd (w2 5)) booked ∧ u16At (params (cmd (w2 5))) 0 = 5 ∧
        tblGet booked.passes 5 = some (pass 0x41 690 3 1)) ∧
      (Commanded (cmd (w2 8192)) booked ∧ 8191 < u16At (params (cmd (w2 8192))) 0) ∧
      Commanded (cmd (w2 8191)) booked ∧ u16At (params (cmd (w2 8191))) 0 ≤ 8191 ∧
        tblGet booked.passes (u16At (params (cmd (w2 8191))) 0) = none :=
  ⟨⟨cancelOk (by decide +kernel) (by decide +kernel), by decide +kernel⟩,
    ⟨cancelOk (by decide +kernel) (by decide +kernel), by decide +kernel⟩, by decide +kernel,
    ⟨commanded (by decide +kernel), by decide +kernel⟩, ⟨commanded (by decide +kernel), by decide +kernel⟩,
    commanded (by decide +kernel), by decide +kernel⟩

/-- Guests given back: two left of three, one of a window with one issued, none of a window that has begun or has left
the ring, none for a courtesy pass. -/
theorem meets_CancellationsEndAPass_givenBack :
    (Commanded (cmd (w2 5)) shortWindow ∧ tblGet shortWindow.passes 5 = some (pass 0x41 690 3 0) ∧
      guestsGivenBack (pass 0x41 690 3 0) shortWindow = 1) ∧
      guestsGivenBack (pass 0x41 690 3 1) booked = 2 ∧ guestsGivenBack (pass 0x41 690 3 0) (dayP 41399 whole) = 3 ∧
      guestsGivenBack (pass 0x41 690 3 0) (dayP 41400 whole) = 0 ∧ guestsGivenBack (pass 0x41 1005 3 0) whole = 0 ∧
      guestsGivenBack { pass 0x41 690 3 0 with length := 10 } whole = 0 ∧
      guestsGivenBack { pass 0x41 690 3 0 with start := none, length := 0, state := .anytime } whole = 0 :=
  ⟨⟨commanded (by decide +kernel), by decide +kernel⟩, by decide +kernel⟩

/-! ### The kiosk exchange -/

/-- A PASSREQ from kiosk 501 with tag 7. -/
def request (i party : Nat) (token : List Nat) : LineRx := fld 501 (w2 7 ++ [i, party] ++ w2 0xFFFF ++ token)

/-- It is accepted. -/
theorem requestOk {s : State} {i party : Nat} {token : List Nat}
    (h : ((s.resetHeld = false ∧ (portUnit .field s).linkUp = true) ∧ (request i party token).port = .field ∧
      LongEnough (8 + (request i party token).rest.length) ∧ s.device ≠ .unconfigured) ∧
      EnvelopeFits (request i party token) ∧
      tblGet s.stations (request i party token).source.toNat = some (stn .kiosk none) ∧
      (stn .kiosk none).role ∈ passReqRow.roles)
    (b : (bodyOf (request i party token)).length = 7 + u8At (bodyOf (request i party token)) 6) :
    Accepted passReqRow (request i party token) s (stn .kiosk none) :=
  accepted h b

theorem meets_PassRequestsAreRefusedInOrder_limits :
    (tokenRec (ntok 0x42) booked = none ∧ 1 ≤ booked.settings.tokenLimit) ∧
      tokenRec (ntok 0x41) booked = some { token := ntok 0x41, passes := [5], holds := 0 } := by
  decide +kernel

theorem meets_PassRequestsAreRefusedInOrder_early :
    (Accepted passReqRow (request 47 8 (tok 0x41)) { day with device := .ready } (stn .kiosk none) ∧
      { day with device := .ready }.device ≠ .day) ∧
      (Accepted passReqRow (request 47 8 shortToken) day (stn .kiosk none) ∧
        BadToken (tokenOf 6 (bodyOf (request 47 8 shortToken))) day) ∧
      (Accepted passReqRow (request 47 0 (tok 0x41)) day (stn .kiosk none) ∧
        ¬ BadToken (tokenOf 6 (bodyOf (request 47 0 (tok 0x41)))) day ∧
        u8At (bodyOf (request 47 0 (tok 0x41))) 3 = 0 ∧ 8 < u8At (bodyOf (request 47 9 (tok 0x41))) 3) ∧
      (Accepted passReqRow (request 48 1 (tok 0x41)) day (stn .kiosk none) ∧ 47 < 48 ∧
        u8At (bodyOf (request 48 1 (tok 0x41))) 2 = 48 ∧ (rideAt 46 day).cfg = none) :=
  ⟨⟨requestOk (by decide +kernel) (by decide +kernel), by decide +kernel⟩,
    ⟨requestOk (by decide +kernel) (by decide +kernel), by decide +kernel⟩,
    ⟨requestOk (by decide +kernel) (by decide +kernel), by decide +kernel⟩,
    requestOk (by decide +kernel) (by decide +kernel), by decide +kernel⟩

theorem meets_PassRequestsAreRefusedInOrder_ride :
    Accepted passReqRow (request 47 8 (tok 0x41)) day (stn .kiosk none) ∧ (rideAt 47 day).cfg = some cfg ∧
      1 ≤ u8At (bodyOf (request 47 8 (tok 0x41))) 3 ∧ u8At (bodyOf (request 47 8 (tok 0x41))) 3 ≤ 8 ∧
      (rideAt 47 (inState .closed)).state = .closed ∧ (rideAt 47 (inState .down)).state = .down ∧
      (rideAt 47 (inState .held)).state = .held ∧
      (rideAt 47 (dayR (fun r => { r with noControl := true }))).noControl = true ∧
      (rideAt 47 (dayR (fun r => { r with cfg := some { cfg with passShare := 0 } }))).cfg =
        some { cfg with passShare := 0 } ∧
      { day with clock := { day.clock with state := .adrift } }.clock.state = .adrift :=
  ⟨requestOk (by decide +kernel) (by decide +kernel), by decide +kernel⟩

/-- A PASSREQ that passes checks 1 to 8. -/
theorem asked {s : State} {party : Nat} (a : Accepted passReqRow (request 47 party (tok 0x41)) s (stn .kiosk none))
    (h : s.device = .day ∧ ¬ BadToken (tokenOf 6 (bodyOf (request 47 party (tok 0x41)))) s ∧
      u8At (bodyOf (request 47 party (tok 0x41))) 2 = 47 ∧ u8At (bodyOf (request 47 party (tok 0x41))) 3 = party ∧
      (1 ≤ party ∧ party ≤ 8) ∧ (rideAt 47 s).cfg = some cfg ∧ (rideAt 47 s).state = .opened ∧
      (rideAt 47 s).noControl = false ∧ s.clock.state ≠ .adrift) :
    Asked (request 47 party (tok 0x41)) s (stn .kiosk none) 47 party cfg :=
  ⟨a, h.1, h.2.1, h.2.2.1, h.2.2.2.1, h.2.2.2.2.1, by decide, h.2.2.2.2.2.1, h.2.2.2.2.2.2.1, h.2.2.2.2.2.2.2.1,
    by decide, h.2.2.2.2.2.2.2.2⟩

/-- The day with a hold of token A. -/
def holding : State := withHold 0 (hold 0x41 690 3) day

theorem meets_PassRequestsAreRefusedInOrder_book :
    (Asked (request 47 8 (tok 0x41)) whole (stn .kiosk none) 47 8 cfg ∧
      passOn (askedToken (request 47 8 (tok 0x41)) whole) 47 whole = some (5, pass 0x41 690 3 0)) ∧
      (Asked (request 47 3 (tok 0x41)) holding (stn .kiosk none) 47 3 cfg ∧
        passOn (askedToken (request 47 3 (tok 0x41)) holding) 47 holding = none ∧
        holdOn (askedToken (request 47 3 (tok 0x41)) holding) 47 holding = some (0, hold 0x41 690 3) ∧
        (hold 0x41 690 3).kiosk = (request 47 3 (tok 0x41)).source.toNat ∧ (hold 0x41 690 3).tag = tagOf (request 47 3 (tok 0x41))) ∧
      (Asked (request 47 4 (tok 0x41)) holding (stn .kiosk none) 47 4 cfg ∧ (hold 0x41 690 3).party ≠ 4) :=
  ⟨⟨asked (requestOk (by decide +kernel) (by decide +kernel)) (by decide +kernel), by decide +kernel⟩,
    ⟨asked (requestOk (by decide +kernel) (by decide +kernel)) (by decide +kernel), by decide +kernel⟩,
    asked (requestOk (by decide +kernel) (by decide +kernel)) (by decide +kernel), by decide +kernel⟩

/-- The day with one pass of token A on another ride, and a token limit of 1. -/
def limited : State :=
  { withPass 5 { pass 0x41 690 3 0 with ride := 46 } day with settings := { day.settings with tokenLimit := 1 } }

/-- The day with a full pass book. -/
def bookFull : State := { day with passes := (List.range 8192).map (fun k => (k, { pass 0x42 690 1 0 with ride := 46 })) }

/-- The day with a full hold list. -/
def holdsFull : State :=
  { day with holds := (List.range 64).map (fun k => (k, { hold 0x42 690 1 with id := k + 1, deadline := 1020 - k / 8 })) }

theorem meets_PassRequestsAreRefusedInOrder_room :
    (Asked (request 47 1 (tok 0x41)) limited (stn .kiosk none) 47 1 cfg ∧
      passOn (askedToken (request 47 1 (tok 0x41)) limited) 47 limited = none ∧
      holdOn (askedToken (request 47 1 (tok 0x41)) limited) 47 limited = none ∧
      atWindowedLimit (askedToken (request 47 1 (tok 0x41)) limited) limited = true) ∧
      (Asked (request 47 1 (tok 0x41)) bookFull (stn .kiosk none) 47 1 cfg ∧
        passOn (askedToken (request 47 1 (tok 0x41)) bookFull) 47 bookFull = none ∧
        holdOn (askedToken (request 47 1 (tok 0x41)) bookFull) 47 bookFull = none ∧
        atWindowedLimit (askedToken (request 47 1 (tok 0x41)) bookFull) bookFull = false ∧
        8192 - bookFull.passes.length ≤ bookFull.holds.length) ∧
      (Asked (request 47 1 (tok 0x41)) holdsFull (stn .kiosk none) 47 1 cfg ∧
        passOn (askedToken (request 47 1 (tok 0x41)) holdsFull) 47 holdsFull = none ∧
        holdOn (askedToken (request 47 1 (tok 0x41)) holdsFull) 47 holdsFull = none ∧
        atWindowedLimit (askedToken (request 47 1 (tok 0x41)) holdsFull) holdsFull = false ∧
        holdsFull.holds.length < 8192 - holdsFull.passes.length ∧ 64 ≤ holdsFull.holds.length ∧
        (∃ e ∈ holdsFull.holds, e.2.deadline = 1013) ∧ (∀ e ∈ holdsFull.holds, 1013 ≤ e.2.deadline) ∧
        13 = max 1 (1013 - holdsFull.clock.elapsed)) :=
  ⟨⟨asked (requestOk (by decide +kernel) (by decide +kernel)) (by decide +kernel), by decide +kernel⟩,
    ⟨asked (requestOk (by decide +kernel) (by decide +kernel)) (by decide +kernel), by decide +kernel⟩,
    asked (requestOk (by decide +kernel) (by decide +kernel)) (by decide +kernel), by decide +kernel⟩

/-- A PASSREQ that passes checks 1 to 12. -/
theorem listed {s : State} {party : Nat} (a : Asked (request 47 party (tok 0x41)) s (stn .kiosk none) 47 party cfg)
    (h : passOn (askedToken (request 47 party (tok 0x41)) s) 47 s = none ∧
      holdOn (askedToken (request 47 party (tok 0x41)) s) 47 s = none ∧
      atWindowedLimit (askedToken (request 47 party (tok 0x41)) s) s = false ∧
      s.holds.length < 8192 - s.passes.length ∧ s.holds.length < 64) :
    Listed (request 47 party (tok 0x41)) s (stn .kiosk none) 47 party cfg :=
  ⟨a, h.1, h.2.1, h.2.2.1, h.2.2.2.1, h.2.2.2.2⟩

/-- The day with a burst of recent offers, and one that no longer counts. -/
def bursting : State := dayR (fun r => { r with recent := [940, 941, 950, 960, 970] })

/-- The day with no room in any window. -/
def soldOut : State := dayR (fun r => { r with ring := r.ring.map (fun w => { w with issued := 70 }) })

theorem meets_PassRequestsAreRefusedInOrder_search :
    (Listed (request 47 8 (tok 0x41)) bursting (stn .kiosk none) 47 8 cfg ∧
      recentKept 47 cfg bursting = 941 :: [950, 960, 970] ∧ cfg.burst ≤ (941 :: [950, 960, 970]).length) ∧
      Listed (request 47 8 (tok 0x41)) soldOut (stn .kiosk none) 47 8 cfg ∧
      (recentKept 47 cfg soldOut).length < cfg.burst ∧ chosenWindow (request 47 8 (tok 0x41)) 47 8 soldOut = none :=
  ⟨⟨listed (asked (requestOk (by decide +kernel) (by decide +kernel)) (by decide +kernel)) (by decide +kernel),
      by decide +kernel⟩,
    listed (asked (requestOk (by decide +kernel) (by decide +kernel)) (by decide +kernel)) (by decide +kernel),
    by decide +kernel⟩

theorem meets_ServedPassRequestsMakeAHold :
    Listed (request 47 8 (tok 0x41)) { day with nextId := 65535 } (stn .kiosk none) 47 8 cfg ∧
      (recentKept 47 cfg { day with nextId := 65535 }).length < cfg.burst ∧ tblWf day.holds ∧
      chosenWindow (request 47 8 (tok 0x41)) 47 8 { day with nextId := 65535 } =
        some { start := 690, capacity := 75, issued := 0, held := 0, mark := true } :=
  ⟨listed (asked (requestOk (by decide +kernel) (by decide +kernel)) (by decide +kernel)) (by decide +kernel),
    by decide +kernel⟩

/-- The day with hold 311 of another token, and 311 the next id. -/
def idTaken : State := { withHold 0 (hold 0x42 690 3) day with nextId := 311 }

theorem meets_ServedPassRequestsMakeAHold_used :
    Listed (request 47 8 (tok 0x41)) idTaken (stn .kiosk none) 47 8 cfg ∧
      (recentKept 47 cfg idTaken).length < cfg.burst ∧ tblWf idTaken.holds ∧ (∃ e ∈ idTaken.holds, e.2.id = 311) ∧
      (chosenWindow (request 47 8 (tok 0x41)) 47 8 idTaken).map (·.start) = some 690 :=
  ⟨listed (asked (requestOk (by decide +kernel) (by decide +kernel)) (by decide +kernel)) (by decide +kernel),
    by decide +kernel⟩

/-- A TAKE from kiosk 502 of a hold id, by a token. -/
def taking (id : Nat) (token : List Nat) : LineRx := fld 502 (w2 8 ++ w2 id ++ token)

/-- It is accepted. -/
theorem takeOk {s : State} {id : Nat} {token : List Nat}
    (h : ((s.resetHeld = false ∧ (portUnit .field s).linkUp = true) ∧ (taking id token).port = .field ∧
      LongEnough (8 + (taking id token).rest.length) ∧ s.device ≠ .unconfigured) ∧ EnvelopeFits (taking id token) ∧
      tblGet s.stations (taking id token).source.toNat = some (stn .kiosk none) ∧ (stn .kiosk none).role ∈ takeRow.roles)
    (b : (bodyOf (taking id token)).length = 5 + u8At (bodyOf (taking id token)) 4) :
    Accepted takeRow (taking id token) s (stn .kiosk none) :=
  accepted h b

/-- The hold's ride is DOWN. -/
def holdingDown : State := updRide 47 (fun r => { r with state := .down }) holding

theorem meets_TakesMakeAPassOrAreRefused :
    Accepted takeRow (taking 311 (tok 0x41)) { day with device := .closing } (stn .kiosk none) ∧
      (Accepted takeRow (taking 311 shortToken) holding (stn .kiosk none) ∧
        BadToken (tokenOf 4 (bodyOf (taking 311 shortToken))) holding) ∧
      (Accepted takeRow (taking 312 (tok 0x41)) holding (stn .kiosk none) ∧
        ∀ e ∈ holding.holds, e.2.id ≠ u16At (bodyOf (taking 312 (tok 0x41))) 2) ∧
      (Accepted takeRow (taking 311 (tok 0x42)) holding (stn .kiosk none) ∧
        holdWithId (u16At (bodyOf (taking 311 (tok 0x42))) 2) holding = some (0, hold 0x41 690 3) ∧
        (hold 0x41 690 3).token ≠ normalized (tokenOf 4 (bodyOf (taking 311 (tok 0x42)))) holding) ∧
      (Accepted takeRow (taking 311 (tok 0x41)) holdingDown (stn .kiosk none) ∧
        holdWithId (u16At (bodyOf (taking 311 (tok 0x41))) 2) holdingDown = some (0, hold 0x41 690 3) ∧
        (rideAt (hold 0x41 690 3).ride holdingDown).state = .down) ∧
      (Accepted takeRow (taking 311 (tok 0x41)) holding (stn .kiosk none) ∧ holding.device = .day ∧
        ¬ BadToken (tokenOf 4 (bodyOf (taking 311 (tok 0x41)))) holding ∧
        holdWithId (u16At (bodyOf (taking 311 (tok 0x41))) 2) holding = some (0, hold 0x41 690 3) ∧
        (hold 0x41 690 3).token = normalized (tokenOf 4 (bodyOf (taking 311 (tok 0x41)))) holding ∧
        (rideAt (hold 0x41 690 3).ride holding).state ≠ .down ∧
        (rideAt (hold 0x41 690 3).ride holding).cfg = some cfg ∧ tblWf holding.passes ∧ LowestFree 0 holding) :=
  ⟨takeOk (by decide +kernel) (by decide +kernel), ⟨takeOk (by decide +kernel) (by decide +kernel), by decide +kernel⟩,
    ⟨takeOk (by decide +kernel) (by decide +kernel), by decide +kernel⟩,
    ⟨takeOk (by decide +kernel) (by decide +kernel), by decide +kernel⟩,
    ⟨takeOk (by decide +kernel) (by decide +kernel), by decide +kernel⟩,
    takeOk (by decide +kernel) (by decide +kernel), by decide +kernel⟩

/-- A table made from a list of keys holds each of them. -/
theorem tblGet_map_ne_none {α : Type} (v : α) (j : Nat) (l : List Nat) (m : j ∈ l) :
    tblGet (l.map (fun k => (k, v))) j ≠ none := by
  induction l with
  | nil => cases m
  | cons a rest ih =>
    rw [List.map_cons, tblGet]
    split
    · simp
    · rename_i other
      cases m with
      | head => exact absurd rfl other
      | tail _ m => exact ih m

/-- The day with passes in the first `n` entries. -/
def firstEntries (n : Nat) : State := { day with passes := (List.range n).map (fun k => (k, pass 0x42 690 1 0)) }

/-- None of those is free. -/
theorem firstEntries_full (n j : Nat) (below : j < n) : tblGet (firstEntries n).passes j ≠ none :=
  tblGet_map_ne_none _ j (List.range n) (List.mem_range.mpr below)

/-- The last entry can be the lowest free one. -/
theorem meets_LowestFree_last : LowestFree 8191 (firstEntries 8191) :=
  ⟨by decide +kernel, firstEntries_full 8191⟩

theorem meets_HoldsEndWithoutAPass :
    (Accepted dropRow (fld 501 (w2 9 ++ w2 311)) holding (stn .kiosk none) ∧
      holdWithId (u16At (bodyOf (fld 501 (w2 9 ++ w2 311))) 2) holding = some (0, hold 0x41 690 3) ∧
      (hold 0x41 690 3).kiosk = (fld 501 (w2 9 ++ w2 311)).source.toNat) ∧
      (Accepted dropRow (fld 502 (w2 9 ++ w2 311)) holding (stn .kiosk none) ∧
        (hold 0x41 690 3).kiosk ≠ (fld 502 (w2 9 ++ w2 311)).source.toNat) ∧
      (Accepted dropRow (fld 502 (w2 9 ++ w2 312)) holding (stn .kiosk none) ∧
        ∀ e ∈ holding.holds, e.2.id ≠ u16At (bodyOf (fld 502 (w2 9 ++ w2 312))) 2) ∧
      ((dayE 1020 holding).resetHeld = false ∧ tblGet (dayE 1020 holding).holds 0 = some (hold 0x41 690 3) ∧
        (hold 0x41 690 3).deadline ≤ (dayE 1020 holding).clock.elapsed ∧ holding.expiredIds.length ≤ 16) ∧
      ((List.range 16).length = 16 ∧ (hold 0x41 690 3).id ∉ List.range 16 ∧ (List.range 16).Nodup) ∧
      (tblGet holding.holds 63 = none ∧ (dayE 1019 holding).clock.elapsed < (hold 0x41 690 3).deadline) :=
  ⟨⟨accepted (by decide +kernel) (show (bodyOf _).length = 4 by decide +kernel), by decide +kernel⟩,
    ⟨accepted (by decide +kernel) (show (bodyOf _).length = 4 by decide +kernel), by decide +kernel⟩,
    ⟨accepted (by decide +kernel) (show (bodyOf _).length = 4 by decide +kernel), by decide +kernel⟩, by decide +kernel⟩

/-- An ISSUE_COURTESY for a ride and a party, by a token. -/
def courtesy (i party : Nat) (token : List Nat) : MgmtRx := cmd ([i, party] ++ token)

/-- Its parameter bytes are there. -/
theorem asksCourtesy {rx : MgmtRx} {s : State} (a : Commanded rx s)
    (h : 3 ≤ (params rx).length ∧ 3 + u8At (params rx) 2 ≤ (params rx).length) : AsksCourtesy rx s :=
  ⟨a, h⟩

theorem meets_CourtesyPasses_refused :
    AsksCourtesy (courtesy 47 8 (tok 0x41)) { day with device := .ready } ∧
      (AsksCourtesy (courtesy 48 8 (tok 0x41)) day ∧ 47 < u8At (params (courtesy 48 8 (tok 0x41))) 0) ∧
      (u8At (params (courtesy 47 0 (tok 0x41))) 1 = 0 ∧ 8 < u8At (params (courtesy 47 9 (tok 0x41))) 1) ∧
      (AsksCourtesy (courtesy 47 1 shortToken) day ∧ BadToken (tokenOf 2 (params (courtesy 47 1 shortToken))) day) ∧
      (AsksCourtesy (courtesy 46 1 (tok 0x41)) day ∧ ¬ BadToken (tokenOf 2 (params (courtesy 46 1 (tok 0x41)))) day ∧
        (rideAt (u8At (params (courtesy 46 1 (tok 0x41))) 0) day).cfg = none) ∧
      { cfg with passShare := 0, batch := 0 }.batch = 0 :=
  ⟨asksCourtesy (commanded (by decide +kernel)) (by decide +kernel),
    ⟨asksCourtesy (commanded (by decide +kernel)) (by decide +kernel), by decide +kernel⟩, by decide +kernel,
    ⟨asksCourtesy (commanded (by decide +kernel)) (by decide +kernel), by decide +kernel⟩,
    ⟨asksCourtesy (commanded (by decide +kernel)) (by decide +kernel), by decide +kernel⟩, rfl⟩

/-- One that passes the first six checks. -/
theorem courtesyChecked {s : State} (a : AsksCourtesy (courtesy 47 8 (tok 0x41)) s)
    (h : s.device = .day ∧ ¬ BadToken (tokenOf 2 (params (courtesy 47 8 (tok 0x41)))) s ∧ (rideAt 47 s).cfg = some cfg) :
    CourtesyChecked (courtesy 47 8 (tok 0x41)) s 47 8 cfg :=
  ⟨a, h.1, by decide +kernel, by decide +kernel, by decide, by decide, h.2.1, h.2.2, by decide⟩

/-- The day with six passes of token A on other rides. -/
def sixPlaces : State :=
  { day with
    passes := (List.range 6).map (fun k => (k, { pass 0x41 690 1 0 with ride := k })),
    tokens := [(tokenKey (ntok 0x41), { token := ntok 0x41, passes := List.range 6, holds := 0 })] }

theorem meets_CourtesyPasses :
    (CourtesyChecked (courtesy 47 8 (tok 0x41)) whole 47 8 cfg ∧
      passOn (courtesyToken (courtesy 47 8 (tok 0x41)) whole) 47 whole = some (5, pass 0x41 690 3 0)) ∧
      (CourtesyChecked (courtesy 47 8 (tok 0x41)) holding 47 8 cfg ∧
        holdOn (courtesyToken (courtesy 47 8 (tok 0x41)) holding) 47 holding = some (0, hold 0x41 690 3)) ∧
      (CourtesyChecked (courtesy 47 8 (tok 0x41)) sixPlaces 47 8 cfg ∧
        atCourtesyLimit (courtesyToken (courtesy 47 8 (tok 0x41)) sixPlaces) sixPlaces = true) ∧
      (CourtesyChecked (courtesy 47 8 (tok 0x41)) bookFull 47 8 cfg ∧
        8192 - bookFull.passes.length ≤ bookFull.holds.length) ∧
      (CourtesyChecked (courtesy 47 8 (tok 0x41)) day 47 8 cfg ∧
        passOn (courtesyToken (courtesy 47 8 (tok 0x41)) day) 47 day = none ∧
        holdOn (courtesyToken (courtesy 47 8 (tok 0x41)) day) 47 day = none ∧
        atCourtesyLimit (courtesyToken (courtesy 47 8 (tok 0x41)) day) day = false ∧
        day.holds.length < 8192 - day.passes.length ∧ tblWf day.passes ∧ LowestFree 0 day) :=
  ⟨⟨courtesyChecked (asksCourtesy (commanded (by decide +kernel)) (by decide +kernel)) (by decide +kernel),
      by decide +kernel⟩,
    ⟨courtesyChecked (asksCourtesy (commanded (by decide +kernel)) (by decide +kernel)) (by decide +kernel),
      by decide +kernel⟩,
    ⟨courtesyChecked (asksCourtesy (commanded (by decide +kernel)) (by decide +kernel)) (by decide +kernel),
      by decide +kernel⟩,
    ⟨courtesyChecked (asksCourtesy (commanded (by decide +kernel)) (by decide +kernel)) (by decide +kernel),
      by decide +kernel⟩,
    courtesyChecked (asksCourtesy (commanded (by decide +kernel)) (by decide +kernel)) (by decide +kernel),
    by decide +kernel⟩

/-! ### The return lane -/

/-- The day with ride 47 ready to release. -/
def releasable : State := dayR (fun r => { r with lane := { r.lane with occupancy := 1, mergeCounter := 12 } })

theorem meets_ReleasesAreSentWhenTheConditionHolds :
    MayRelease (rideAt 47 releasable) cfg ∧
      (∃ before st rest, releasable.stations = before ++ (620, st) :: rest ∧
        (st.role = .mergeGate ∧ st.binding = some 47) ∧
        ∀ e ∈ before, ¬ (e.2.role = .mergeGate ∧ e.2.binding = some 47)) ∧
      ReleaseGoesTo 47 4095 { releasable with stations := [] } ∧
      (∀ c, ¬ MayRelease (rideAt 47 (dayR (fun r => { r with lane := { r.lane with occupancy := 1, mergeCounter := 11 } }))) c) ∧
      ∀ c, ¬ MayRelease (rideAt 46 day) c :=
  ⟨⟨by decide +kernel, by decide +kernel, by decide +kernel, by decide +kernel, by decide +kernel, by decide +kernel,
      by decide +kernel⟩,
    ⟨stations.take 5, stn .mergeGate (some 47), stations.drop 6, by decide +kernel⟩,
    .inr ⟨rfl, by decide⟩,
    fun c h => by
      have known : (rideAt 47 (dayR (fun r => { r with lane := { r.lane with
        occupancy := 1, mergeCounter := 11 } }))).cfg = some cfg := by decide +kernel
      have counted := h.counted
      rw [show c = cfg from Option.some.inj (h.known.symm.trans known)] at counted
      exact absurd counted (by decide +kernel),
    fun c h => absurd h.batch (by
      have none_there : (rideAt 46 day).cfg = none := by decide +kernel
      exact absurd (h.known.symm.trans none_there) nofun)⟩

/-- A REDEEM at scanner 610 by a token. -/
def showing (guests : Nat) (token : List Nat) : LineRx := fld 610 (w2 90 ++ [guests] ++ token)

/-- It is accepted. -/
theorem redeemOk {s : State} {guests : Nat} {token : List Nat}
    (h : ((s.resetHeld = false ∧ (portUnit .field s).linkUp = true) ∧ (showing guests token).port = .field ∧
      LongEnough (8 + (showing guests token).rest.length) ∧ s.device ≠ .unconfigured) ∧
      EnvelopeFits (showing guests token) ∧
      tblGet s.stations (showing guests token).source.toNat = some (stn .returnScanner (some 47)) ∧
      (stn .returnScanner (some 47)).role ∈ redeemRow.roles)
    (b : (bodyOf (showing guests token)).length = 4 + u8At (bodyOf (showing guests token)) 3) :
    Accepted redeemRow (showing guests token) s (stn .returnScanner (some 47)) :=
  accepted h b

theorem meets_RedemptionsAreCheckedInOrder :
    Accepted redeemRow (showing 1 (tok 0x41)) { day with device := .closing } (stn .returnScanner (some 47)) ∧
      (Accepted redeemRow (showing 1 shortToken) day (stn .returnScanner (some 47)) ∧
        BadToken (tokenOf 3 (bodyOf (showing 1 shortToken))) day) ∧
      (Accepted redeemRow (showing 0 (tok 0x41)) day (stn .returnScanner (some 47)) ∧
        ¬ BadToken (tokenOf 3 (bodyOf (showing 0 (tok 0x41)))) day ∧ u8At (bodyOf (showing 0 (tok 0x41))) 2 = 0) ∧
      (Accepted redeemRow (showing 1 (tok 0x41)) { day with rides := List.replicate 48 Ride.reset }
          (stn .returnScanner (some 47)) ∧ (rideAt 47 { day with rides := List.replicate 48 Ride.reset }).cfg = none) ∧
      (AboutRide redeemRow (showing 1 (tok 0x41)) (inState .closed) (stn .returnScanner (some 47)) 47 cfg ∧
        (rideAt 47 (inState .closed)).state = .closed ∧ (rideAt 47 (inState .down)).state = .down) :=
  ⟨redeemOk (by decide +kernel) (by decide +kernel), ⟨redeemOk (by decide +kernel) (by decide +kernel), by decide +kernel⟩,
    ⟨redeemOk (by decide +kernel) (by decide +kernel), by decide +kernel⟩,
    ⟨redeemOk (by decide +kernel) (by decide +kernel), by decide +kernel⟩,
    about (redeemOk (by decide +kernel) (by decide +kernel)) (by decide +kernel), by decide +kernel⟩

/-- A REDEEM that passes the checks up to the ride's state. -/
theorem presented {s : State}
    (a : Accepted redeemRow (showing 8 (tok 0x41)) s (stn .returnScanner (some 47)))
    (h : (rideAt 47 s).cfg = some cfg ∧ s.device = .day ∧ ¬ BadToken (tokenOf 3 (bodyOf (showing 8 (tok 0x41)))) s ∧
      ((rideAt 47 s).state = .opened ∨ (rideAt 47 s).state = .held)) :
    Presented (showing 8 (tok 0x41)) s (stn .returnScanner (some 47)) 47 cfg :=
  ⟨about a ⟨rfl, by decide, h.1⟩, h.2.1, h.2.2.1, by decide +kernel, h.2.2.2⟩

/-- The limits of the pass for 690: from 680 on, and before 720. -/
theorem meets_RedemptionsAreCheckedInOrder_time :
    (Presented (showing 8 (tok 0x41)) day (stn .returnScanner (some 47)) 47 cfg ∧
      passOn (shownToken (showing 8 (tok 0x41)) day) 47 day = none) ∧
      (Presented (showing 8 (tok 0x41)) (dayP 40799 whole) (stn .returnScanner (some 47)) 47 cfg ∧
        passOn (shownToken (showing 8 (tok 0x41)) (dayP 40799 whole)) 47 (dayP 40799 whole) = some (5, pass 0x41 690 3 0) ∧
        ¬ Disrupted 690 (pass 0x41 690 3 0) cfg (dayP 40799 whole) ∧ TooEarly 690 cfg (dayP 40799 whole)) ∧
      (¬ TooEarly 690 cfg (dayP 43200 whole) ∧ TooLate 690 (pass 0x41 690 3 0) cfg (dayP 43200 whole) ∧
        ¬ Disrupted 690 (pass 0x41 690 3 0) cfg (dayP 43200 whole)) :=
  ⟨⟨presented (redeemOk (by decide +kernel) (by decide +kernel)) (by decide +kernel), by decide +kernel⟩,
    ⟨presented (redeemOk (by decide +kernel) (by decide +kernel)) (by decide +kernel), by decide +kernel⟩,
    by decide +kernel⟩

theorem meets_RedemptionsAdmitGuests :
    (Presented (showing 8 (tok 0x41)) (dayP 40800 whole) (stn .returnScanner (some 47)) 47 cfg ∧
      passOn (shownToken (showing 8 (tok 0x41)) (dayP 40800 whole)) 47 (dayP 40800 whole) = some (5, pass 0x41 690 3 0) ∧
      ¬ TooEarly 690 cfg (dayP 40800 whole) ∧ ¬ TooLate 690 (pass 0x41 690 3 0) cfg (dayP 40800 whole)) ∧
      ¬ TooLate 690 (pass 0x41 690 3 0) cfg (dayP 43199 whole) ∧ { pass 0x41 690 3 0 with state := .anytime }.state = .anytime ∧
      3 = min (min (u8At (bodyOf (showing 8 (tok 0x41))) 2) 8) ((pass 0x41 690 3 0).party - (pass 0x41 690 3 0).admitted) :=
  ⟨⟨presented (redeemOk (by decide +kernel) (by decide +kernel)) (by decide +kernel), by decide +kernel⟩, by decide +kernel⟩

/-- The time of the early limit, with so many guests in the return lane and a merge counter of 12. -/
def laneAt (guests : Nat) : State :=
  updRide 47 (fun r => { r with lane := { r.lane with occupancy := guests, mergeCounter := 12 } }) (dayP 40800 whole)

theorem meets_RedemptionsAdmitGuests_lane :
    ∀ guests ∈ [0, 9996, 9997, 9999],
      (Presented (showing 8 (tok 0x41)) (laneAt guests) (stn .returnScanner (some 47)) 47 cfg ∧
        passOn (shownToken (showing 8 (tok 0x41)) (laneAt guests)) 47 (laneAt guests) = some (5, pass 0x41 690 3 0)) ∧
      ¬ TooEarly 690 cfg (laneAt guests) ∧ ¬ TooLate 690 (pass 0x41 690 3 0) cfg (laneAt guests) := by
  intro guests h
  simp only [List.mem_cons, List.not_mem_nil, or_false] at h
  obtain rfl | rfl | rfl | rfl := h <;>
    exact ⟨⟨presented (redeemOk (by decide +kernel) (by decide +kernel)) (by decide +kernel), by decide +kernel⟩,
      by decide +kernel⟩

/-- R149, R144: three guests admitted to an empty lane are released at once; R that meets 9999 is reported. -/
theorem test_redeem_lane :
    after (.redeem (showing 8 (tok 0x41))) (laneAt 0) (fun t => t.field.origin.map (·.body)) =
      some [.release 3, .admission 90 3 0] ∧
      after (.redeem (showing 8 (tok 0x41))) { laneAt 9997 with reportMask := 0 }
        (fun t => (t.park.origin.map (fun f => bodyKind f.body), (rideAt 47 t).lane.occupancy)) =
        some ([0x43, 0x42], 9999) := by
  decide +kernel

/-- The day with a release outstanding until 1000. -/
def releasing : State :=
  dayR (fun r => { r with lane := { r.lane with occupancy := 6, outstanding := some { batch := 4, deadline := 1000 } } })

theorem meets_ReleasesEnd :
    (AboutRide releasedRow (fld 620 [255]) releasing (stn .mergeGate (some 47)) 47 cfg ∧ releasing.device = .day ∧
      (rideAt 47 (heardState (fld 620 [255]) (stn .mergeGate (some 47)) releasing)).lane.outstanding =
        some { batch := 4, deadline := 1000 }) ∧
      (AboutRide releasedRow (fld 620 [255]) { day with device := .closing } (stn .mergeGate (some 47)) 47 cfg ∧
        (rideAt 47 (heardState (fld 620 [255]) (stn .mergeGate (some 47)) { day with device := .closing })).lane.outstanding =
          none) ∧
      Accepted releasedRow (fld 620 [1]) { day with device := .ready } (stn .mergeGate (some 47)) ∧
      (releasing.resetHeld = false ∧ (rideAt 47 releasing).lane.outstanding = some { batch := 4, deadline := 1000 } ∧
        1000 ≤ releasing.clock.elapsed ∧ (dayE 999 releasing).clock.elapsed < 1000 ∧
        (rideAt 47 day).lane.outstanding = none) :=
  ⟨⟨about (accepted (by decide +kernel) (show (bodyOf _).length = 1 by decide +kernel)) (by decide +kernel),
      by decide +kernel⟩,
    ⟨about (accepted (by decide +kernel) (show (bodyOf _).length = 1 by decide +kernel)) (by decide +kernel),
      by decide +kernel⟩,
    accepted (by decide +kernel) (show (bodyOf _).length = 1 by decide +kernel), by decide +kernel⟩

/-! ### Boards -/

/-- A BOARD frame of three slots for board 730. -/
def boardRx : LineRx := prk 730 (3 :: List.replicate 18 9)

theorem meets_BoardFramesAreRewritten :
    (BoardArrives boardRx day ∧ OfBoard boardRx day 6 boardRec ∧ BoardFits boardRx 3) ∧
      ((∀ k, ¬ BoardFits (prk 730 [0]) k) ∧ OfBoard (prk 730 [0]) day 6 boardRec) ∧
      (BoardArrives (prk 731 [0]) day ∧ boardOf (prk 731 [0]).dest.toNat day = none) ∧
      (StatusOf (rideAt 47 day) 0 ∧ StatusOf (rideAt 47 (inState .held)) 3 ∧ StatusOf (rideAt 46 day) 1 ∧
        StatusOf (rideAt 47 (inState .down)) 2) ∧
      (PassSymbolOf 47 day 5 ∧ PassSymbolOf 47 (inState .held) 6 ∧ PassSymbolOf 46 day 7) :=
  ⟨⟨⟨receives (by decide +kernel), by decide +kernel, by decide +kernel, by decide +kernel⟩, by decide +kernel,
      ⟨by decide +kernel, by decide +kernel, by decide, by decide +kernel⟩⟩,
    ⟨fun k h => absurd h.filled (by
      have count : u8At (bodyOf (prk 730 [0])) 0 = 0 := by decide +kernel
      rw [← h.count, count]
      decide), by decide +kernel⟩,
    ⟨⟨receives (by decide +kernel), by decide +kernel, by decide +kernel, by decide +kernel⟩, by decide +kernel⟩,
    by decide +kernel,
    .inr ⟨cfg, by decide +kernel⟩, .inr ⟨cfg, by decide +kernel⟩,
    .inl ⟨rfl, fun c h => by
      have none_there : (rideAt 46 day).cfg = none := by decide +kernel
      exact absurd (h.symm.trans none_there) nofun⟩⟩

theorem meets_BoardsRefreshThemselves :
    ((dayE 1060 day).resetHeld = false ∧ tblGet (dayE 1060 day).boards 6 = some boardRec ∧
      boardRec.deadline ≤ (dayE 1060 day).clock.elapsed ∧ (dayE 1060 day).device = .day) ∧
      { dayE 1060 day with device := .closing }.device = .closing ∧
      ∀ b, tblGet (dayE 1059 day).boards 6 = some b → (dayE 1059 day).clock.elapsed < b.deadline :=
  ⟨by decide +kernel, rfl, fun b h => by
    have e : tblGet (dayE 1059 day).boards 6 = some boardRec := by decide +kernel
    rw [e] at h
    cases h
    decide +kernel⟩

/-- A LOAD_BOARD of two slots. -/
def loadBoard (index station set count : Nat) : MgmtRx :=
  cmd ([index] ++ w2 station ++ [set] ++ w2 601 ++ [count] ++ [47, 1, 255, 0])

theorem meets_BoardsAndSymbolsAreLoaded :
    (LoadsBoard (loadBoard 63 4093 7 2) day 63 2 ∧ BoardChecks (loadBoard 63 4093 7 2) day 63 2 ∧
      u16At (params (loadBoard 63 4093 7 2)) 4 = 601) ∧
      (LoadsBoard (loadBoard 64 4093 7 2) day 64 2 ∧ LoadsBoard (loadBoard 63 730 7 2) day 63 2 ∧
        ¬ BoardChecks (loadBoard 63 730 7 2) day 63 2 ∧ ¬ BoardChecks (loadBoard 63 731 8 2) day 63 2) ∧
      (LoadsBoard (loadBoard 6 0 0 0) day 6 0 ∧ tblGet day.boards 6 = some boardRec) ∧
      (LoadsBoard (loadBoard 5 0 0 0) day 5 0 ∧ tblGet day.boards 5 = none) ∧
      (Commanded (cmd [7, 1, 2, 3, 4, 5, 6, 7, 8]) day ∧ 9 ≤ (params (cmd [7, 1, 2, 3, 4, 5, 6, 7, 8])).length ∧
        day.symbols.length = 8) ∧
      Commanded (cmd [8, 1, 2, 3, 4, 5, 6, 7, 8]) day ∧ 7 < u8At (params (cmd [8, 1, 2, 3, 4, 5, 6, 7, 8])) 0 :=
  ⟨⟨⟨commanded (by decide +kernel), by decide +kernel, by decide +kernel, by decide +kernel⟩, by decide +kernel⟩,
    ⟨⟨commanded (by decide +kernel), by decide +kernel, by decide +kernel, by decide +kernel⟩,
      ⟨commanded (by decide +kernel), by decide +kernel, by decide +kernel, by decide +kernel⟩, by decide +kernel⟩,
    ⟨⟨commanded (by decide +kernel), by decide +kernel, by decide +kernel, by decide +kernel⟩, by decide +kernel⟩,
    ⟨⟨commanded (by decide +kernel), by decide +kernel, by decide +kernel, by decide +kernel⟩, by decide +kernel⟩,
    ⟨commanded (by decide +kernel), by decide +kernel⟩, commanded (by decide +kernel), by decide +kernel⟩

/-! ### Management -/

theorem meets_MgmtFramesAreJudgedFirst :
    (Receives (cmd []).port day ∧ LongEnough (9 + (cmd []).tail.length)) ∧
      { cmd [] with dest := 4093 }.dest.toNat ≠ ownStation day ∧
      ((cmd []).dest.toNat = ownStation day ∧ { cmd [] with port := .field }.port = .field) ∧
      ({ cmd [] with bodyLen := 2 }.bodyLen.toNat < 3 ∧ ¬ { cmd [] with bodyLen := 56 }.bodyLen.toNat ≤
        1 + (cmd []).tail.length) ∧
      (Commanded (cmd []) day ∧ (0x19 : Nat) < (0x1A : Byte).toNat) ∧
      (Commanded (cmd [47, 8]) day ∧ (params (cmd [47, 8])).length < 3) ∧
      (Commanded (cmd [47, 8, 4, 1, 2, 3]) day ∧ (params (cmd [47, 8, 4, 1, 2, 3])).length < 3 + u8At (params (cmd [47, 8, 4, 1, 2, 3])) 2) ∧
      (Commanded (cmd [4, 1, 2, 3]) day ∧ (params (cmd [4, 1, 2, 3])).length < 1 + u8At (params (cmd [4, 1, 2, 3])) 0) ∧
      (params (cmd [1, 2, 3, 4, 5, 6, 1, 8])).length < 7 + 2 * u8At (params (cmd [1, 2, 3, 4, 5, 6, 1, 8])) 6 ∧
      (47 < u8At (params (cmd [48])) 0 ∧ (rideAt (u8At (params (cmd [46])) 0) day).cfg = none) :=
  ⟨⟨receives (by decide +kernel), by decide +kernel⟩, by decide +kernel, by decide +kernel, by decide +kernel,
    ⟨commanded (by decide +kernel), by decide +kernel⟩, ⟨commanded (by decide +kernel), by decide +kernel⟩,
    ⟨commanded (by decide +kernel), by decide +kernel⟩, ⟨commanded (by decide +kernel), by decide +kernel⟩,
    by decide +kernel⟩

theorem meets_ParkSettingsAndMask :
    (Commanded (cmd [0, 0x20, 61]) fresh ∧ 3 ≤ (params (cmd [0, 0x20, 61])).length ∧ fresh.device = .unconfigured ∧
      (params (cmd [0, 0x20, 61]))[1]? = some 0x20) ∧
      (Commanded (cmd [0, 0x20, 61]) day ∧ day.device = .day) ∧
      (Commanded (cmd [15]) day ∧ u8At (params (cmd [15])) 0 ≤ 15) ∧
      Commanded (cmd [16]) day ∧ 15 < u8At (params (cmd [16])) 0 :=
  ⟨⟨commanded (by decide +kernel), by decide +kernel⟩, ⟨commanded (by decide +kernel), by decide +kernel⟩,
    ⟨commanded (by decide +kernel), by decide +kernel⟩, commanded (by decide +kernel), by decide +kernel⟩

theorem meets_TheDayBeginsAndEnds :
    (Commanded (cmd []) fresh ∧ fresh.device = .unconfigured ∧ fresh.stations ≠ []) ∧
      Commanded (cmd []) State.reset ∧ (State.reset.device = .unconfigured ∧ State.reset.stations = []) ∧
      (Commanded (cmd []) day ∧ day.device ≠ .unconfigured ∧ day.device ≠ .ready) ∧
      (Commanded (cmd []) { day with device := .ready } ∧ day.clock.state ≠ .unset) ∧
      (Commanded (cmd []) unset ∧ unset.device = .ready ∧ unset.clock.state = .unset) ∧
      (Commanded (cmd []) holding ∧ holding.device = .day ∧ tblWf holding.holds) ∧ fresh.device ≠ .day :=
  ⟨⟨commanded (by decide +kernel), by decide +kernel⟩, commanded (by decide +kernel), by decide +kernel,
    ⟨commanded (by decide +kernel), by decide +kernel⟩, ⟨commanded (by decide +kernel), by decide +kernel⟩,
    ⟨commanded (by decide +kernel), by decide +kernel⟩, ⟨commanded (by decide +kernel), by decide +kernel⟩,
    by decide +kernel⟩

/-- CLOSING with one pass in an entry. -/
def purging (k cursor : Nat) : State :=
  { withPass k (pass 0x41 690 3 0) day with device := .closing, purgeCursor := some cursor }

theorem meets_PurgesEmptyThePassTable :
    (Commanded (cmd []) (purging 8191 7168) ∧ (purging 8191 7168).device = .closing ∧
      (purging 8191 7168).purgeCursor = some 7168 ∧ tblWf (purging 8191 7168).passes ∧
      (purging 8191 7168).passes.filter (fun e => ¬ InBatch 7168 e.1) = []) ∧
      (purging 1024 0).passes.filter (fun e => ¬ InBatch 0 e.1) ≠ [] ∧ day.device ≠ .closing :=
  ⟨⟨commanded (by decide +kernel), by decide +kernel⟩, by decide +kernel⟩

/-! ### Queries -/

/-- The day with passes of ride 47 in the first `n` entries. -/
def manyPasses (n : Nat) : State := firstEntries n

theorem meets_QueriesChangeNothing :
    Commanded (cmd []) day ∧ NamesRide (cmd [47]) day 1 47 cfg ∧
      (Commanded (cmd shortToken) day ∧ 1 ≤ (params (cmd shortToken)).length ∧
        1 + u8At (params (cmd shortToken)) 0 ≤ (params (cmd shortToken)).length ∧
        BadToken (tokenOf 0 (params (cmd shortToken))) day) ∧
      (Commanded (cmd (tok 0x41)) day ∧ ¬ BadToken (tokenOf 0 (params (cmd (tok 0x41)))) day ∧
        tokenRec (normalized (tokenOf 0 (params (cmd (tok 0x41)))) day) day = none) ∧
      (tokenRec (normalized (tokenOf 0 (params (cmd (tok 0x41)))) booked) booked =
          some { token := ntok 0x41, passes := [5], holds := 0 } ∧
        [5].map (tblGet booked.passes) = [pass 0x41 690 3 1].map some) :=
  ⟨commanded (by decide +kernel), namesRide (commanded (by decide +kernel)) (by decide +kernel),
    ⟨commanded (by decide +kernel), by decide +kernel⟩, ⟨commanded (by decide +kernel), by decide +kernel⟩,
    by decide +kernel⟩

theorem meets_QueriesChangeNothing_walks :
    (Commanded (cmd ([47] ++ w2 8192)) day ∧ 8191 < u16At (params (cmd ([47] ++ w2 8192))) 1 ∧
      47 < u8At (params (cmd ([48] ++ w2 0))) 0 ∧ (rideAt (u8At (params (cmd ([46] ++ w2 0))) 0) day).cfg = none) ∧
      (NamesRide (cmd ([47] ++ w2 8191)) (manyPasses 24) 3 47 cfg ∧ u16At (params (cmd ([47] ++ w2 8191))) 1 = 8191 ∧
        (walkedPasses 47 0 (manyPasses 24)).length ≤ 24) ∧
      (walkedPasses 47 0 (manyPasses 25) =
          (List.range 23).map (fun k => (k, pass 0x42 690 1 0)) ++ (23, pass 0x42 690 1 0) :: [(24, pass 0x42 690 1 0)] ∧
        ((List.range 23).map (fun k => (k, pass 0x42 690 1 0))).length = 23) ∧
      (Commanded (cmd (w2 4096)) day ∧ 4095 < u16At (params (cmd (w2 4096))) 0) ∧
      (Commanded (cmd (w2 4095)) day ∧ u16At (params (cmd (w2 4095))) 0 = 4095 ∧
        (walkedStations 0 (crowded 32)).length ≤ 32) ∧
      walkedStations 0 (crowded 33) =
        (List.range 31).map (fun k => (k + 1, stn .kiosk none)) ++ (32, stn .kiosk none) :: [(33, stn .kiosk none)] :=
  ⟨⟨commanded (by decide +kernel), by decide +kernel⟩,
    ⟨namesRide (commanded (by decide +kernel)) (by decide +kernel), by decide +kernel⟩, by decide +kernel,
    ⟨commanded (by decide +kernel), by decide +kernel⟩, ⟨commanded (by decide +kernel), by decide +kernel⟩,
    by decide +kernel⟩

theorem meets_FramesAreReadAndWritten_empty :
    (.refused .range, 0x03, 0x02) ∈ resultRows ∧ (.refused .range : MgmtResult) ≠ .clamped ∧
      (bodyBytes (.mgmtAnswer 0x11 7 (refused .range))) = bs [0x11, 0, 7, 3, 2] := by
  decide

theorem meets_FramesAreReadAndWritten :
    countRow ∈ fieldRows ∧ 4094 < 65536 ∧ (bodyBytes (.admission 91 2 3)).length < 65536 ∧
      ((.noPass, 0x14) ∈ refuseRows ∧ (.refused .unknownCommand, 0x03, 0x06) ∈ resultRows ∧
        (.holdsFull, 0x0D, 6) ∈ reportRows ∧ (.disrupted, 0x06) ∈ eventRows) :=
  ⟨.head _, by decide, by decide +kernel, by decide⟩

/-! ### What always holds -/

/-- A state in the middle of a day, with a hold and the next second waiting. -/
def running : State := { holding with pending := [.secondTick], nextId := 312 }

theorem meets_QueuesAndCountersStayBounded :
    running.queuesBounded ∧ running.reportsHeldBack ∧ running.downPortsEmpty ∧ running.countersBounded := by
  refine ⟨by decide +kernel, by decide +kernel, by decide +kernel, by decide +kernel⟩

theorem meets_SilenceFollowsTheStationTable :
    running.tablesCanonical ∧ running.tablesWhole ∧ running.silenceFollows := by
  refine ⟨by decide +kernel, by decide +kernel, by decide +kernel⟩

theorem meets_ClockAndDayStaySound : running.clock.sound ∧ running.dayShape := by
  refine ⟨by decide +kernel, by decide +kernel⟩

theorem meets_HeldCountsFitTheHolds : running.holdsSound := by
  refine ⟨by decide +kernel, by decide +kernel, by decide +kernel, by decide +kernel⟩

theorem meets_RidesStaySound : running.ridesSound := by
  refine ⟨by decide +kernel, by decide +kernel, by decide +kernel, by decide +kernel, by decide +kernel⟩

theorem meets_TheBookStaysSound : running.bookSound := by
  refine ⟨by decide +kernel, by decide +kernel, by decide +kernel, by decide +kernel, by decide +kernel,
    by decide +kernel, by decide +kernel, by decide +kernel, by decide +kernel⟩

/-- A state with a pass of three, one of them admitted, on a ride that is DOWN for the second time. -/
def troubled : State :=
  updRide 47
    (fun r => { r with
      state := .down, outages := [{ start := 38000, stop := some 38060 }, { start := 38500, stop := none }] })
    { booked with pending := [.secondTick] }

theorem meets_HeldCountsFitTheHolds_pass : troubled.holdsSound := by
  refine ⟨by decide +kernel, by decide +kernel, by decide +kernel, by decide +kernel⟩

theorem meets_RidesStaySound_down : troubled.ridesSound := by
  refine ⟨by decide +kernel, by decide +kernel, by decide +kernel, by decide +kernel, by decide +kernel⟩

theorem meets_TheBookStaysSound_pass : troubled.bookSound := by
  refine ⟨by decide +kernel, by decide +kernel, by decide +kernel, by decide +kernel, by decide +kernel,
    by decide +kernel, by decide +kernel, by decide +kernel, by decide +kernel⟩

/-- The step of that state answers a next state. -/
theorem running_steps : (match step running with | .next t => decide (t.clock.elapsed = 1001) | _ => false) = true := by
  decide +kernel

end Sys2Proof.Tests
end

section
/-! ## What every step keeps

A property that every effect of a command keeps is kept by every command and every step. -/

namespace Sys2Proof.Machine

/-- The effects a command can have, one field for each, keep a property of the state. A reset is not among them: what it
leaves does not rest on the state before. -/
structure EffectsKeep (P : State → Prop) : Prop where
  waiting : ∀ l s, P s → P { s with pending := l }
  transit : ∀ p f s, P s → P (placeTransit p f s)
  answer : ∀ f s, P s → P (placeOrigin .park f s)
  counted : ∀ name s, P s → P (bump name s)
  count : ∀ n st v s, tblGet s.stations n = some st → P s → P (takeCount n st v (hear n st s))
  dispatch : ∀ rx n st s, tblGet s.stations n = some st → P s → P (dispatchEffect rx st (hear n st s))
  rideState : ∀ rx n st s, tblGet s.stations n = some st → P s → P (rideStateEffect rx st (hear n st s))
  released : ∀ rx n st s, tblGet s.stations n = some st → P s → P (releasedEffect rx st (hear n st s))
  passReq : ∀ rx n st s, tblGet s.stations n = some st → P s → P (takePassReq rx (hear n st s))
  take : ∀ rx n st s, tblGet s.stations n = some st → P s → P (acceptTake rx (hear n st s))
  drop : ∀ rx n st s, tblGet s.stations n = some st → P s → P (acceptDrop rx (hear n st s))
  cancel : ∀ rx n st s, tblGet s.stations n = some st → P s → P (acceptCancel rx (hear n st s))
  redeem : ∀ rx n st s, tblGet s.stations n = some st → P s → P (redeemEffect rx st (hear n st s))
  board : ∀ index b f s, (index, b) ∈ s.boards → P s → P (placeRewritten index b f s)
  time : ∀ v s, v ≤ Config.maxDaySecond → P s → P (takeTime v s)
  command : ∀ code params s, P s → P (commandFor code params s).1
  second : ∀ s, P s → P (tickSecond s)
  clockAge : ∀ old n new s, old ≠ .unset → new ≠ .unset → P s → P (ageClock old n new s)
  silence : ∀ n s, P s → P (silenceDue n s)
  hold : ∀ n s, P s → P (holdDue n s)
  release : ∀ n s, P s → P (releaseDue n s)
  refresh : ∀ n s, P s → P (refreshDue n s)
  linkDown : ∀ p s, s.resetHeld = false → (portUnit p s).linkUp = true → P s → P (dropLink p s)
  linkUp : ∀ p s, s.resetHeld = false → (portUnit p s).linkUp = false → P s → P (raiseLink p s)
  linkNoted : ∀ p up s, s.resetHeld = true → P s → P (noteLink p up s)
  sending : ∀ p s, P s → P (startSending p s)
  sent : ∀ p s, P s → P (finishSending p s)
  resetHeld : ∀ s, P s → P { s with resetHeld := true }

variable {P : State → Prop} {s t : State}

/-- An arriving frame has its effect, or none (R1, R22). -/
theorem onArrival_keeps {p : Port} {n : Nat} {effect : State → State} (h : P (effect s)) (hs : P s)
    (ht : onArrival p n effect s = .next t) : P t := by
  obtain rfl := Host.Outcome.next.inj ht
  split
  · exact h
  · exact hs

/-- An internal step has its effect, or none while RESET is held (log 7). -/
theorem onInside_keeps {effect : State → State} (h : P (effect s)) (hs : P s) (ht : onInside effect s = .next t) :
    P t := by
  obtain rfl := Host.Outcome.next.inj ht
  split
  · exact hs
  · exact h

/-- R6 accepts frames of stations in the table alone. -/
theorem known_of_judge {roles : List Role} {bodyOk : List Byte → Bool} {rx : LineRx} {st : Station}
    (h : judge roles bodyOk rx s = .ok st) : tblGet s.stations (sourceOf rx) = some st := by
  unfold judge at h
  (repeat' split at h) <;> simp_all

section
variable (k : EffectsKeep P)
include k

/-- An observed frame is counted and goes on, or has its effect and goes on (R6, R7). -/
theorem observe_keeps {kind : Byte} {roles : List Role} {bodyOk : List Byte → Bool}
    {effect : Station → State → State} {rx : LineRx}
    (h : ∀ st, tblGet s.stations (sourceOf rx) = some st → P (effect st (hear (sourceOf rx) st s))) (hs : P s) :
    P (observe kind roles bodyOk effect rx s) := by
  unfold observe
  split
  · exact k.transit _ _ _ hs
  · split
    · exact k.transit _ _ _ (k.counted _ _ hs)
    · exact k.transit _ _ _ (h _ (known_of_judge ‹_›))

/-- A consumed frame is forwarded, counted, or has its effect (R6, R7). -/
theorem consume_keeps {kind : Byte} {roles : List Role} {bodyOk : List Byte → Bool}
    {effect : Station → State → State} {rx : LineRx}
    (h : ∀ st, tblGet s.stations (sourceOf rx) = some st → P (effect st (hear (sourceOf rx) st s))) (hs : P s) :
    P (consume kind roles bodyOk effect rx s) := by
  unfold consume
  split
  · exact k.transit _ _ _ hs
  · split
    · exact k.counted _ _ hs
    · exact h _ (known_of_judge ‹_›)

theorem arriveCount_keeps (rx : LineRx) (hs : P s) : P (arriveCount rx s) :=
  observe_keeps k (fun st h => k.count _ st _ s h hs) hs
theorem arriveDispatch_keeps (rx : LineRx) (hs : P s) : P (arriveDispatch rx s) :=
  observe_keeps k (fun st h => k.dispatch rx _ st s h hs) hs
theorem arriveRideState_keeps (rx : LineRx) (hs : P s) : P (arriveRideState rx s) :=
  observe_keeps k (fun st h => k.rideState rx _ st s h hs) hs
theorem arriveReleased_keeps (rx : LineRx) (hs : P s) : P (arriveReleased rx s) :=
  observe_keeps k (fun st h => k.released rx _ st s h hs) hs
theorem arrivePassReq_keeps (rx : LineRx) (hs : P s) : P (arrivePassReq rx s) :=
  consume_keeps k (fun st h => k.passReq rx _ st s h hs) hs
theorem arriveTake_keeps (rx : LineRx) (hs : P s) : P (arriveTake rx s) :=
  consume_keeps k (fun st h => k.take rx _ st s h hs) hs
theorem arriveDrop_keeps (rx : LineRx) (hs : P s) : P (arriveDrop rx s) :=
  consume_keeps k (fun st h => k.drop rx _ st s h hs) hs
theorem arriveCancel_keeps (rx : LineRx) (hs : P s) : P (arriveCancel rx s) :=
  consume_keeps k (fun st h => k.cancel rx _ st s h hs) hs
theorem arriveRedeem_keeps (rx : LineRx) (hs : P s) : P (arriveRedeem rx s) :=
  consume_keeps k (fun st h => k.redeem rx _ st s h hs) hs

theorem arriveBoard_keeps (rx : LineRx) (hs : P s) : P (arriveBoard rx s) := by
  unfold arriveBoard
  split
  · exact k.transit _ _ _ hs
  · split
    · exact k.transit _ _ _ hs
    · rename_i index b hb
      unfold takeBoard
      split
      · exact k.board index b _ s (List.mem_of_find?_eq_some hb) hs
      · exact k.transit _ _ _ (k.counted _ _ hs)

theorem arriveTime_keeps (rx : LineRx) (hs : P s) : P (arriveTime rx s) := by
  unfold arriveTime
  split
  · exact k.transit _ _ _ hs
  · split
    · rename_i h
      simp only [timeBodyOk, Bool.and_eq_true, decide_eq_true_eq] at h
      exact k.transit _ _ _ (k.time _ s h.2.2 hs)
    · exact k.transit _ _ _ (k.counted _ _ hs)

/-- A MGMT frame is forwarded, counted, or runs its command and is answered (R8, R174). -/
theorem arriveMgmt_keeps (code : Byte) {run : Command} (h : ∀ params, P (run params s).1) (rx : MgmtRx) (hs : P s) :
    P (arriveMgmt code run rx s) := by
  unfold arriveMgmt
  dsimp only
  split
  · exact k.transit _ _ _ hs
  · split
    · exact k.counted _ _ hs
    · split
      · exact k.answer _ _ (h _)
      · exact k.counted _ _ hs

theorem arriveMgmtLine_keeps (rx : LineRx) (hs : P s) : P (arriveMgmtLine rx s) := by
  unfold arriveMgmtLine
  split
  · exact arriveMgmt_keeps k _ (fun params => k.command _ params s hs) _ hs
  · split
    · exact k.transit _ _ _ hs
    · split
      · exact k.counted _ _ hs
      · exact k.counted _ _ hs

/-- A line frame of any kind (Table 1-6). -/
theorem arriveLine_keeps (kind : Byte) (rx : LineRx) (hs : P s) : P (arriveLine kind rx s) := by
  unfold arriveLine
  split
  · exact arriveCount_keeps k rx hs
  · exact arriveDispatch_keeps k rx hs
  · exact arriveRideState_keeps k rx hs
  · exact arriveReleased_keeps k rx hs
  · exact arrivePassReq_keeps k rx hs
  · exact arriveTake_keeps k rx hs
  · exact arriveDrop_keeps k rx hs
  · exact arriveCancel_keeps k rx hs
  · exact arriveRedeem_keeps k rx hs
  · exact arriveBoard_keeps k rx hs
  · exact arriveTime_keeps k rx hs
  · exact arriveMgmtLine_keeps k rx hs
  · exact k.transit _ _ _ hs

/-- Any frame (R1). -/
theorem arriveFrame_keeps (p : Port) (f : Frame) (hs : P s) : P (arriveFrame p f s) := by
  unfold arriveFrame
  split
  · exact k.transit _ _ _ hs
  · split
    · exact k.transit _ _ _ (k.counted _ _ hs)
    · split
      · exact arriveLine_keeps k _ _ hs
      · exact k.transit _ _ _ hs

/-- A MGMT row runs the command its code names (Table 1-5). -/
theorem mgmtStep_keeps (code : Byte) (rx : MgmtRx) (hs : P s)
    (ht : mgmtStep code (commandFor code) rx s = .next t) : P t :=
  onArrival_keeps (arriveMgmt_keeps k _ (fun params => k.command _ params s hs) _ hs) hs ht

/-- Every command but a reset keeps what every effect keeps, and a reset what it leaves. -/
theorem exec_keeps (c : Instr) (hr : ∀ straps, c = .reset straps → P (resetState straps s)) (hs : P s)
    (ht : exec c s = .next t) : P t := by
  cases c with
  | frameDiscard p why => exact Host.Outcome.next.inj ht ▸ hs
  | otherTraffic p f =>
    unfold exec execOtherTraffic at ht
    refine onArrival_keeps ?_ hs ht
    split
    · exact arriveFrame_keeps k p f hs
    · exact k.transit _ _ _ hs
  | foreignFrame p f =>
    unfold exec execForeignFrame at ht
    refine onArrival_keeps ?_ hs ht
    split
    · exact k.transit _ _ _ (k.counted _ _ hs)
    · exact arriveFrame_keeps k p f hs
  | forward p f => exact onArrival_keeps (arriveFrame_keeps k p f hs) hs ht
  | count rx => exact onArrival_keeps (arriveCount_keeps k rx hs) hs ht
  | dispatch rx => exact onArrival_keeps (arriveDispatch_keeps k rx hs) hs ht
  | rideState rx => exact onArrival_keeps (arriveRideState_keeps k rx hs) hs ht
  | released rx => exact onArrival_keeps (arriveReleased_keeps k rx hs) hs ht
  | passReq rx => exact onArrival_keeps (arrivePassReq_keeps k rx hs) hs ht
  | take rx => exact onArrival_keeps (arriveTake_keeps k rx hs) hs ht
  | drop rx => exact onArrival_keeps (arriveDrop_keeps k rx hs) hs ht
  | cancel rx => exact onArrival_keeps (arriveCancel_keeps k rx hs) hs ht
  | redeem rx => exact onArrival_keeps (arriveRedeem_keeps k rx hs) hs ht
  | board rx => exact onArrival_keeps (arriveBoard_keeps k rx hs) hs ht
  | time rx => exact onArrival_keeps (arriveTime_keeps k rx hs) hs ht
  | wrongPortMgmt rx =>
    unfold exec execWrongPortMgmt at ht
    refine onArrival_keeps ?_ hs ht
    split
    · exact k.counted _ _ hs
    · exact arriveMgmtLine_keeps k rx hs
  | unknownCommand code rx => exact mgmtStep_keeps k code rx hs ht
  | identify rx => exact mgmtStep_keeps k 0x01 rx hs ht
  | loadPark rx => exact mgmtStep_keeps k 0x02 rx hs ht
  | loadClass rx => exact mgmtStep_keeps k 0x03 rx hs ht
  | loadStation rx => exact mgmtStep_keeps k 0x04 rx hs ht
  | removeStation rx => exact mgmtStep_keeps k 0x05 rx hs ht
  | loadRide rx => exact mgmtStep_keeps k 0x06 rx hs ht
  | unloadRide rx => exact mgmtStep_keeps k 0x07 rx hs ht
  | loadBoard rx => exact mgmtStep_keeps k 0x08 rx hs ht
  | loadSymbols rx => exact mgmtStep_keeps k 0x09 rx hs ht
  | makeReady rx => exact mgmtStep_keeps k 0x0A rx hs ht
  | dayBegin rx => exact mgmtStep_keeps k 0x0B rx hs ht
  | dayEnd rx => exact mgmtStep_keeps k 0x0C rx hs ht
  | purge rx => exact mgmtStep_keeps k 0x0D rx hs ht
  | openRide rx => exact mgmtStep_keeps k 0x0E rx hs ht
  | closeRide rx => exact mgmtStep_keeps k 0x0F rx hs ht
  | setQueue rx => exact mgmtStep_keeps k 0x10 rx hs ht
  | setMask rx => exact mgmtStep_keeps k 0x11 rx hs ht
  | issueCourtesy rx => exact mgmtStep_keeps k 0x12 rx hs ht
  | cancelPass rx => exact mgmtStep_keeps k 0x13 rx hs ht
  | queryRide rx => exact mgmtStep_keeps k 0x14 rx hs ht
  | queryWindows rx => exact mgmtStep_keeps k 0x15 rx hs ht
  | queryToken rx => exact mgmtStep_keeps k 0x16 rx hs ht
  | queryPasses rx => exact mgmtStep_keeps k 0x17 rx hs ht
  | queryStations rx => exact mgmtStep_keeps k 0x18 rx hs ht
  | readCounters rx => exact mgmtStep_keeps k 0x19 rx hs ht
  | secondTick => exact onInside_keeps (k.second s hs) hs ht
  | clockFree => exact onInside_keeps (k.clockAge _ _ _ s (by decide) (by decide) hs) hs ht
  | clockAdrift => exact onInside_keeps (k.clockAge _ _ _ s (by decide) (by decide) hs) hs ht
  | silenceExpiry n => exact onInside_keeps (k.silence n s hs) hs ht
  | holdExpiry n => exact onInside_keeps (k.hold n s hs) hs ht
  | releaseTimeout n => exact onInside_keeps (k.release n s hs) hs ht
  | boardRefresh n => exact onInside_keeps (k.refresh n s hs) hs ht
  | linkDown p =>
    obtain rfl := Host.Outcome.next.inj ht
    split
    · exact k.linkNoted p false s ‹_› hs
    · split
      · exact k.linkDown p s (by simpa using ‹¬ s.resetHeld = true›) ‹_› hs
      · exact hs
  | linkUp p =>
    obtain rfl := Host.Outcome.next.inj ht
    split
    · exact k.linkNoted p true s ‹_› hs
    · split
      · exact hs
      · exact k.linkUp p s (by simpa using ‹¬ s.resetHeld = true›) (by simpa using ‹¬ (portUnit p s).linkUp = true›) hs
  | transmitStart p => exact onInside_keeps (k.sending p s hs) hs ht
  | transmitDone p => exact onInside_keeps (k.sent p s hs) hs ht
  | reset straps => exact Host.Outcome.next.inj ht ▸ hr straps rfl
  | resetAsserted => exact Host.Outcome.next.inj ht ▸ k.resetHeld s hs

/-- A step takes the command in front, or idles (log 3): it keeps what every effect keeps, when what a reset leaves has
it too. -/
theorem step_keeps (hr : ∀ straps s, P s → P (resetState straps s)) (hs : P s) (ht : step s = .next t) : P t := by
  unfold step at ht
  split at ht
  · exact Host.Outcome.next.inj ht ▸ hs
  · rename_i c rest _
    have hs' := k.waiting rest s hs
    exact exec_keeps k c (fun straps _ => hr straps _ hs') hs' ht

end

/-! ### Commands -/

/-- Too few parameter bytes change nothing (R174). -/
theorem withBytes_keeps {n : Nat} {run : Command} {params : List Byte} (h : P (run params s).1) (hs : P s) :
    P (withBytes n run params s).1 := by
  unfold withBytes
  split
  · exact hs
  · exact h

/-- A refused ride index changes nothing (R43). -/
theorem onRide_keeps {run : Nat → Command} {params : List Byte} (h : ∀ i, i ≤ 47 → configured i s = true → P (run i params s).1)
    (hs : P s) : P (onRide run params s).1 := by
  unfold onRide
  refine withBytes_keeps ?_ hs
  dsimp only
  split
  · exact hs
  · split
    · exact hs
    · exact h _ (by omega) (by simp_all)

end Sys2Proof.Machine
end

section
/-! ## Queues, reports and counters (R18 to R21, R191, R192, R194) -/

namespace Sys2Proof.Machine

variable {s t : State}

/-- The bounds that hold between two moves of reports too. -/
structure PortsBounded (s : State) : Prop where
  queues : s.queuesBounded
  downEmpty : s.downPortsEmpty
  counters : s.countersBounded

/-- What every step keeps of queues, reports and counters. -/
structure PortsSound (s : State) : Prop extends PortsBounded s where
  heldBack : s.reportsHeldBack

theorem portsSound_iff :
    PortsSound s ↔ s.queuesBounded ∧ s.reportsHeldBack ∧ s.downPortsEmpty ∧ s.countersBounded :=
  ⟨fun h => ⟨h.queues, h.heldBack, h.downEmpty, h.counters⟩, fun ⟨hq, hr, hd, hc⟩ => ⟨⟨hq, hd, hc⟩, hr⟩⟩

/-- Queues, reports and counters as they were. -/
abbrev SamePorts (t s : State) : Prop :=
  t.resetHeld = s.resetHeld ∧ t.field = s.field ∧ t.park = s.park ∧ t.reportQueue = s.reportQueue ∧
    t.counters = s.counters

theorem PortsSound.of_same (h : PortsSound s) (hst : SamePorts t s) : PortsSound t := by
  obtain ⟨h1, h2, h3, h4, h5⟩ := hst
  simpa only [portsSound_iff, State.queuesBounded, State.reportsHeldBack, State.downPortsEmpty, State.countersBounded,
    h1, h2, h3, h4, h5] using h

/-! ### Counters -/

theorem raiseCounter_le (n v : Nat) : raiseCounter n v ≤ Config.maxCount := Nat.min_le_left _ _

/-- A counter holds at 65535 (R194). -/
theorem addCounter_bounded (name : Counter) (n : Nat) {c : Counters} (h : ∀ v ∈ counterValues c, v ≤ Config.maxCount) :
    ∀ v ∈ counterValues (addCounter name n c), v ≤ Config.maxCount := by
  simp only [counterValues, List.forall_mem_cons] at h ⊢
  cases name <;> simp [addCounter, raiseCounter_le, h]

theorem PortsBounded.with_counters (h : PortsBounded s) (c : Counters) (hc : ∀ v ∈ counterValues c, v ≤ Config.maxCount) :
    PortsBounded { s with counters := c } := ⟨h.queues, h.downEmpty, hc⟩

theorem bump_bounded (name : Counter) (h : PortsBounded s) : PortsBounded (bump name s) :=
  h.with_counters _ (addCounter_bounded name 1 h.counters)

theorem bump_ports (name : Counter) (h : PortsSound s) : PortsSound (bump name s) :=
  ⟨bump_bounded name h.toPortsBounded, h.heldBack⟩

/-! ### Port units -/

/-- A port unit whose queues keep to their places, and that holds nothing while its link is DOWN. -/
structure UnitSound (held : Bool) (u : PortUnit) : Prop where
  bounded : u.bounded
  empty : held = false → u.linkUp = false → u.transit = [] ∧ u.origin = [] ∧ u.sending = none

/-- The bounds are those of the two units, of the report queue and of the counters. -/
theorem portsBounded_iff : PortsBounded s ↔ (∀ p, UnitSound s.resetHeld (portUnit p s)) ∧
    s.reportQueue.length ≤ Config.reportPlaces ∧ s.countersBounded := by
  constructor
  · rintro ⟨⟨hf, hp, hq⟩, hd, hc⟩
    refine ⟨fun p => ?_, hq, hc⟩
    cases p with
    | field => exact ⟨hf, fun h => hd h _ (by simp [portUnit])⟩
    | park => exact ⟨hp, fun h => hd h _ (by simp [portUnit])⟩
  · rintro ⟨hu, hq, hc⟩
    refine ⟨⟨(hu .field).bounded, (hu .park).bounded, hq⟩, fun h u hmem => ?_, hc⟩
    simp only [List.mem_cons, List.not_mem_nil, or_false] at hmem
    rcases hmem with rfl | rfl
    · exact (hu .field).empty h
    · exact (hu .park).empty h

theorem setPort_bounded {p : Port} {u : PortUnit} (hu : UnitSound s.resetHeld u) (h : PortsBounded s) :
    PortsBounded (setPort p u s) := by
  obtain ⟨hall, hq, hc⟩ := portsBounded_iff.1 h
  refine portsBounded_iff.2 ⟨fun p' => ?_, by simpa using hq, by simpa [State.countersBounded] using hc⟩
  rw [(setPort_keeps p u s).1.2.1]
  cases p <;> cases p'
  · exact hu
  · exact hall .park
  · exact hall .field
  · exact hu

/-- A frame that finds room in a transit queue keeps the unit's bounds (R18). -/
theorem placeTransit_bounded (p : Port) (f : Frame) (h : PortsBounded s) : PortsBounded (placeTransit p f s) := by
  unfold placeTransit
  split
  · rename_i hroom
    simp only [transitRoom, Bool.and_eq_true, decide_eq_true_eq] at hroom
    obtain ⟨hb, -⟩ := (portsBounded_iff.1 h).1 p
    exact setPort_bounded ⟨⟨by simp; omega, hb.2⟩, by simp [hroom.1]⟩ h
  · exact bump_bounded _ h

/-- The same of an origin queue (R18). -/
theorem placeOrigin_bounded (p : Port) (f : OriginFrame) (h : PortsBounded s) : PortsBounded (placeOrigin p f s) := by
  unfold placeOrigin
  split
  · rename_i hroom
    simp only [originRoom, Bool.and_eq_true, decide_eq_true_eq] at hroom
    obtain ⟨hb, -⟩ := (portsBounded_iff.1 h).1 p
    exact setPort_bounded ⟨⟨hb.1, by simp; omega⟩, by simp [hroom.1]⟩ h
  · exact bump_bounded _ h

theorem placeTransit_park_origin (p : Port) (f : Frame) (s : State) :
    (placeTransit p f s).park.origin = s.park.origin := by
  unfold placeTransit
  split
  · cases p <;> rfl
  · rfl

/-- Placing a frame makes no origin queue shorter. -/
theorem placeOrigin_park_length (p : Port) (f : OriginFrame) (s : State) :
    s.park.origin.length ≤ (placeOrigin p f s).park.origin.length := by
  unfold placeOrigin
  split
  · cases p <;> simp [setPort, portUnit]
  · exact Nat.le_refl _

theorem placeTransit_ports (p : Port) (f : Frame) (h : PortsSound s) : PortsSound (placeTransit p f s) :=
  ⟨placeTransit_bounded p f h.toPortsBounded, by
    simpa [State.reportsHeldBack, placeTransit_park_origin] using h.heldBack⟩

theorem placeOrigin_ports (p : Port) (f : OriginFrame) (h : PortsSound s) : PortsSound (placeOrigin p f s) :=
  ⟨placeOrigin_bounded p f h.toPortsBounded, h.heldBack.imp (by simp)
    (fun h8 => Nat.le_trans h8 (placeOrigin_park_length p f s))⟩

/-! ### Reports -/

/-- Reports that move leave behind those alone that R192 holds back. -/
theorem moveReportsFrom_ports (w : List Report) (hw : w.length ≤ Config.reportPlaces) (h : PortsBounded s) :
    PortsSound (moveReportsFrom w s) := by
  induction w generalizing s with
  | nil =>
    obtain ⟨⟨hf, hp, -⟩, hd, hc⟩ := h
    exact ⟨⟨⟨hf, hp, by simp [moveReportsFrom]⟩, hd, hc⟩, .inl rfl⟩
  | cons r rest ih =>
    unfold moveReportsFrom
    split
    · exact ih (by simp at hw; omega) (placeOrigin_bounded _ _ h)
    · obtain ⟨⟨hf, hp, -⟩, hd, hc⟩ := h
      exact ⟨⟨⟨hf, hp, hw⟩, hd, hc⟩, .inr (Nat.not_lt.1 ‹_›)⟩

theorem moveReports_ports (h : PortsBounded s) : PortsSound (moveReports s) :=
  moveReportsFrom_ports _ h.queues.2.2 h

/-- A report is discarded, lost, or joins the report queue, which then moves (R189, R191, R192). -/
theorem report_ports (kind : ReportKind) (subject detail : Nat) (h : PortsSound s) :
    PortsSound (report kind subject detail s) := by
  unfold report
  split
  · exact h
  · split
    · obtain ⟨⟨⟨hf, hp, -⟩, hd, hc⟩, -⟩ := h
      exact moveReports_ports ⟨⟨hf, hp, by simp; omega⟩, hd, hc⟩
    · exact bump_ports _ h

/-! ### Links and transmitters -/

theorem reportsAtLink_ports (p : Port) (h : PortsBounded s) (hf : p = .field → s.reportsHeldBack) :
    PortsSound (reportsAtLink p s) := by
  cases p with
  | field => exact ⟨h, hf rfl⟩
  | park => exact moveReports_ports h

/-- A port made empty is within its bounds. -/
theorem emptied_sound (held up : Bool) (u : PortUnit) : UnitSound held (emptied up u) :=
  ⟨⟨by simp [emptied], by simp [emptied]⟩, by simp [emptied]⟩

theorem dropLink_ports (p : Port) (h : PortsSound s) : PortsSound (dropLink p s) := by
  refine reportsAtLink_ports p (setPort_bounded (emptied_sound _ _ _)
    (h.toPortsBounded.with_counters _ (addCounter_bounded _ _ (addCounter_bounded _ _ h.counters)))) ?_
  rintro rfl
  exact h.heldBack

theorem raiseLink_ports (p : Port) (h : PortsSound s) : PortsSound (raiseLink p s) := by
  refine reportsAtLink_ports p (setPort_bounded (emptied_sound _ _ _) h.toPortsBounded) ?_
  rintro rfl
  exact h.heldBack

/-- While RESET is held a link change is noted and nothing else is (log 7). -/
theorem noteLink_ports (p : Port) (up : Bool) (hheld : s.resetHeld = true) (h : PortsSound s) :
    PortsSound (noteLink p up s) := by
  obtain ⟨hb, -⟩ := (portsBounded_iff.1 h.toPortsBounded).1 p
  refine ⟨setPort_bounded ⟨hb, by simp [hheld]⟩ h.toPortsBounded, ?_⟩
  cases p <;> exact h.heldBack

/-- The unit after the head of a queue has gone to the transmitter. -/
theorem takeHead_sound {held : Bool} {u : PortUnit} (q : QueueName) (h : UnitSound held u) (hup : u.linkUp = true) :
    UnitSound held (takeHead q u) := by
  obtain ⟨ht, ho⟩ := h.bounded
  cases q
  · exact ⟨⟨by simp [takeHead]; omega, ho⟩, by simp [takeHead, hup]⟩
  · exact ⟨⟨ht, by simp [takeHead]; omega⟩, by simp [takeHead, hup]⟩

theorem startSending_ports (p : Port) (h : PortsSound s) : PortsSound (startSending p s) := by
  unfold startSending
  dsimp only
  split
  · rename_i hup
    simp only [Bool.and_eq_true] at hup
    split
    · exact h
    · rename_i q _
      have hb := setPort_bounded (p := p)
        (takeHead_sound q ((portsBounded_iff.1 h.toPortsBounded).1 p) hup.2) h.toPortsBounded
      cases p <;> cases q
      · exact ⟨hb, h.heldBack⟩
      · exact ⟨hb, h.heldBack⟩
      · exact ⟨hb, h.heldBack⟩
      · exact moveReports_ports hb
  · exact h

theorem finishSending_ports (p : Port) (h : PortsSound s) : PortsSound (finishSending p s) := by
  obtain ⟨hb, he⟩ := (portsBounded_iff.1 h.toPortsBounded).1 p
  have hu : UnitSound s.resetHeld { portUnit p s with sending := none } :=
    ⟨hb, fun hr hdown => ⟨(he hr hdown).1, (he hr hdown).2.1, rfl⟩⟩
  refine ⟨setPort_bounded hu h.toPortsBounded, ?_⟩
  cases p <;> exact h.heldBack

theorem resetHeld_ports (h : PortsSound s) : PortsSound { s with resetHeld := true } :=
  ⟨⟨h.queues, by simp [State.downPortsEmpty], h.counters⟩, h.heldBack⟩

theorem resetState_ports (straps : BitVec 12) (s : State) : PortsSound (resetState straps s) := by
  refine ⟨portsBounded_iff.2 ⟨fun p => ?_, by simp [resetState, State.reset], ?_⟩, .inl rfl⟩
  · cases p <;>
      exact ⟨⟨by simp [resetState, portUnit, resetPort, PortUnit.reset],
        by simp [resetState, portUnit, resetPort, PortUnit.reset]⟩,
        by simp [resetState, portUnit, resetPort, PortUnit.reset]⟩
  · simp [State.countersBounded, resetState, State.reset, Counters.zero, counterValues]

end Sys2Proof.Machine
end

section
/-! ## The moves that effects are made of

Every effect but those on the station table is made of a few moves: a frame placed, an event counted, a report made, a
record of a table written or freed, a ride record changed without its silence flags. What these moves keep is kept by
every owner's operation; the lemmas walk the chapters' operations once for all such properties. -/

namespace Sys2Proof.Machine

/-- A change of a ride record that leaves STALE, NO_CONTROL and gate silence as they were. -/
def KeepsFlags (f : Ride → Ride) : Prop :=
  ∀ r, (f r).est.stale = r.est.stale ∧ (f r).noControl = r.noControl ∧ (f r).lane.gateSilence = r.lane.gateSilence

/-- The moves keep a property of the state. A newly configured ride takes its flags from the station table (R40), so
that it is a move of its own. -/
structure MovesKeep (P : State → Prop) : Prop where
  transit : ∀ p f s, P s → P (placeTransit p f s)
  origin : ∀ p f s, P s → P (placeOrigin p f s)
  counted : ∀ name s, P s → P (bump name s)
  cleared : ∀ s, P s → P { s with counters := Counters.zero }
  reported : ∀ kind subject detail s, P s → P (report kind subject detail s)
  ride : ∀ i f s, KeepsFlags f → P s → P (updRide i f s)
  everyRide : ∀ f s, KeepsFlags f → P s → P { s with rides := s.rides.map f }
  configured : ∀ i c s, P s → P (configureRide i c s)
  pass : ∀ n p s, P s → P (putPass n p s)
  passFreed : ∀ n s, P s → P { s with passes := tblErase s.passes n }
  token : ∀ t s, P s → P (putToken t s)
  hold : ∀ h s, P s → P (makeHold h s)
  holdFreed : ∀ slot s, P s → P (clearSlot slot s)
  expired : ∀ ids s, P s → P { s with expiredIds := ids }
  board : ∀ n b s, P s → P (putBoard n b s)
  boardFreed : ∀ n s, P s → P { s with boards := tblErase s.boards n }
  classRate : ∀ n rate s, P s → P { s with classes := s.classes.set n rate }
  symbolSet : ∀ n codes s, P s → P { s with symbols := s.symbols.set n codes }
  clock : ∀ c s, P s → P { s with clock := c }
  device : ∀ d s, P s → P { s with device := d }
  cursor : ∀ c s, P s → P { s with purgeCursor := c }
  settings : ∀ d s, P s → P { s with settings := d }
  mask : ∀ level s, P s → P { s with reportMask := level }

/-! ### Changes of a ride record that keep its flags -/

@[simp] theorem recompute_flags : KeepsFlags recompute := fun r => by rw [recompute_is]; exact ⟨rfl, rfl, rfl⟩

@[simp] theorem postingRun_flags : KeepsFlags postingRun := fun r => by rw [postingRun_is]; exact ⟨rfl, rfl, rfl⟩

theorem KeepsFlags.comp {f g : Ride → Ride} (hg : KeepsFlags g) (hf : KeepsFlags f) : KeepsFlags (fun r => g (f r)) :=
  fun r => ⟨(hg _).1.trans (hf r).1, (hg _).2.1.trans (hf r).2.1, (hg _).2.2.trans (hf r).2.2⟩

theorem KeepsFlags.ite {f g : Ride → Ride} {c : Ride → Prop} [∀ r, Decidable (c r)] (hf : KeepsFlags f)
    (hg : KeepsFlags g) : KeepsFlags (fun r => if c r then f r else g r) := by
  intro r
  dsimp only
  split
  · exact hf r
  · exact hg r

theorem keepsFlags_id : KeepsFlags (fun r => r) := fun _ => ⟨rfl, rfl, rfl⟩

@[simp] theorem reestimate_flags : KeepsFlags reestimate := postingRun_flags.comp recompute_flags

theorem sampleDispatch_flags (rate t f : Nat) : KeepsFlags (sampleDispatch rate t f) := by
  intro r
  unfold sampleDispatch
  split
  · exact ⟨rfl, rfl, rfl⟩
  · split
    · exact ⟨rfl, rfl, rfl⟩
    · split
      · exact ⟨rfl, rfl, rfl⟩
      · dsimp only
        split
        · exact ⟨rfl, rfl, rfl⟩
        · exact reestimate_flags _

theorem estimatorEnters_flags (rate : Nat) (old new : RideState) : KeepsFlags (estimatorEnters rate old new) := by
  intro r
  unfold estimatorEnters
  split
  · exact reestimate_flags (seedThroughput rate r)
  · split
    · exact postingRun_flags r
    · exact keepsFlags_id r

theorem estimatorReconfigured_flags (old new : RideCfg) (rate : Nat) :
    KeepsFlags (estimatorReconfigured old new rate) := by
  intro r
  obtain ⟨t, -, h⟩ := estimatorReconfigured_is old new rate r
  rw [h]
  dsimp only
  split
  · exact ⟨rfl, rfl, rfl⟩
  · split
    · exact reestimate_flags { r with est := { r.est with throughput := t } }
    · exact recompute_flags { r with est := { r.est with throughput := t } }

section
variable {P : State → Prop} (k : MovesKeep P) {s : State}
include k

/-! ### Answers, calendar, holds -/

theorem MovesKeep.answerField (rx : LineRx) (body : Body) (hs : P s) : P (answerField rx body s) := k.origin _ _ _ hs

theorem MovesKeep.refuse (rx : LineRx) (kind : Nat) (reason : RefuseReason) (extra : Nat) (hs : P s) :
    P (refuse rx kind reason extra s) := k.counted _ _ (k.origin _ _ _ hs)

theorem MovesKeep.updTotals (i : Nat) (f : DayTotals → DayTotals) (hs : P s) : P (updTotals i f s) :=
  k.ride _ _ _ (fun _ => ⟨rfl, rfl, rfl⟩) hs

theorem MovesKeep.updLane (i : Nat) (f : Lane → Lane) (hf : ∀ l, (f l).gateSilence = l.gateSilence) (hs : P s) :
    P (updLane i f s) := k.ride _ _ _ (fun r => ⟨rfl, rfl, hf r.lane⟩) hs

theorem MovesKeep.setRing (i : Nat) (ring : List Window) (hs : P s) : P (setRing i ring s) :=
  k.ride _ _ _ (fun _ => ⟨rfl, rfl, rfl⟩) hs

theorem MovesKeep.setRecent (i : Nat) (recent : List Nat) (hs : P s) : P (setRecent i recent s) :=
  k.ride _ _ _ (fun _ => ⟨rfl, rfl, rfl⟩) hs

theorem MovesKeep.updWindow (i start : Nat) (f : Window → Window) (hs : P s) : P (updWindow i start f s) :=
  k.setRing _ _ hs

theorem MovesKeep.cancelHold (slot : Nat) (h : Hold) (hs : P s) : P (cancelHold slot h s) :=
  k.token _ _ (k.holdFreed _ _ hs)

theorem MovesKeep.releaseHold (slot : Nat) (h : Hold) (hs : P s) : P (releaseHold slot h s) :=
  k.cancelHold slot h (k.updWindow _ _ _ hs)

theorem MovesKeep.expireHold (slot : Nat) (h : Hold) (hs : P s) : P (expireHold slot h s) :=
  k.expired _ _ (k.releaseHold slot h hs)

theorem MovesKeep.releaseHoldsOn (i : Nat) (hs : P s) : P (releaseHoldsOn i s) :=
  foldl_induct hs fun _ e h => k.releaseHold e.1 e.2 h

theorem MovesKeep.cancelHoldsOn (i : Nat) (starts : List Nat) (hs : P s) : P (cancelHoldsOn i starts s) :=
  foldl_induct hs fun _ e h => k.cancelHold e.1 e.2 h

theorem MovesKeep.rollTo (fuel i m : Nat) (hs : P s) : P (rollTo fuel i m s) := by
  induction fuel generalizing s with
  | zero => exact hs
  | succ n ih =>
    unfold Machine.rollTo
    split
    · exact hs
    · split
      · exact ih (k.setRing _ _ (k.cancelHoldsOn _ _ hs))
      · exact hs

theorem MovesKeep.ringMinute (first last m i : Nat) (hs : P s) : P (ringMinute first last m i s) := by
  unfold Machine.ringMinute
  split
  · exact hs
  · split
    · exact k.setRing _ _ (k.cancelHoldsOn _ _ hs)
    · exact k.rollTo _ _ _ hs

theorem MovesKeep.calendarMinute (first last m : Nat) (hs : P s) : P (calendarMinute first last m s) :=
  foldl_induct hs fun _ i h => k.ringMinute first last m i h

/-! ### Pass book -/

theorem MovesKeep.passLog (event : PassEvent) (n : Nat) (p : Pass) (count : Nat) (hs : P s) :
    P (passLog event n p count s) := k.origin _ _ _ hs

theorem MovesKeep.freePass (n : Nat) (p : Pass) (hs : P s) : P (freePass n p s) := k.passFreed _ _ (k.token _ _ hs)

theorem MovesKeep.createGranted (h : Hold) (hs : P s) : P (createGranted h s) :=
  k.passLog _ _ _ _ (k.counted _ _ (k.updTotals _ _ (k.token _ _ (k.pass _ _ _ hs))))

theorem MovesKeep.createCourtesy (token : List Byte) (i party : Nat) (hs : P s) : P (createCourtesy token i party s) :=
  k.passLog _ _ _ _ (k.updTotals _ _ (k.token _ _ (k.pass _ _ _ hs)))

theorem MovesKeep.admitOn (n : Nat) (p : Pass) (guests : Nat) (hs : P s) : P (admitOn n p guests s) := by
  unfold Machine.admitOn
  split
  · exact k.freePass n p hs
  · exact k.pass _ _ _ hs

theorem MovesKeep.examinePass (n : Nat) (p : Pass) (hs : P s) : P (examinePass n p s) := by
  unfold Machine.examinePass
  split
  · exact k.passLog _ _ _ _ (k.pass _ _ _ hs)
  · exact k.freePass _ _ (k.passLog _ _ _ _ (k.counted _ _ hs))

theorem MovesKeep.expirePasses (m : Nat) (hs : P s) : P (expirePasses m s) :=
  foldl_induct hs fun _ e h => k.examinePass e.1 e.2 h

theorem MovesKeep.returnFor (p : Pass) (hs : P s) : P (returnFor p s) := by
  unfold Machine.returnFor
  split
  · exact hs
  · unfold returnRoom
    split
    · exact k.updWindow _ _ _ hs
    · exact hs

theorem MovesKeep.cancelLive (n : Nat) (p : Pass) (hs : P s) : P (cancelLive n p s) :=
  k.freePass n p (k.passLog _ _ _ _ (k.returnFor p hs))

/-! ### Park clock -/

theorem MovesKeep.minuteRun (first count : Nat) (hs : P s) : P (minuteRun first count s) :=
  foldl_induct hs fun _ _ h => k.expirePasses _ (k.calendarMinute _ _ _ h)

theorem MovesKeep.raiseMinutes (new : Nat) (hs : P s) : P (raiseMinutes new s) := by
  unfold Machine.raiseMinutes
  split
  · exact hs
  · split
    · exact k.minuteRun _ _ (k.clock _ _ hs)
    · exact hs

theorem MovesKeep.advanceParkTime (old : Nat) (hs : P s) : P (advanceParkTime old s) := by
  unfold Machine.advanceParkTime
  refine k.raiseMinutes _ ?_
  split
  · exact k.reported _ _ _ _ (k.clock _ _ hs)
  · exact k.clock _ _ hs

theorem MovesKeep.tickSecond (hs : P s) : P (tickSecond s) := by
  unfold Machine.tickSecond
  dsimp only
  split
  · split
    · exact k.clock _ _ hs
    · split
      · exact k.advanceParkTime _ (k.clock _ _ hs)
      · exact k.clock _ _ hs
  · exact hs

theorem MovesKeep.acceptTime (v : Nat) (hs : P s) : P (acceptTime v s) := by
  unfold Machine.acceptTime
  have accepted := k.clock
    { s.clock with parkTime := some v, syncMark := some s.clock.elapsed, pendingJump := none, state := .synced,
                   highMark := some (s.clock.highMark.getD (v / 60)) } s hs
  have synced := iteInduction (motive := P) (c := s.clock.state = .synced) (fun _ => accepted)
    (fun _ => k.reported .clockState 0 (twoCodes 0 (clockCode .synced)) _ accepted)
  exact k.raiseMinutes _ (iteInduction (fun _ => k.reported _ _ _ _ synced) (fun _ => synced))

theorem MovesKeep.takeTime (v : Nat) (hs : P s) : P (takeTime v s) := by
  unfold Machine.takeTime
  split
  · exact k.acceptTime v hs
  · split
    · exact k.acceptTime v hs
    · split
      · exact k.reported _ _ _ _ (k.acceptTime v hs)
      · exact k.clock _ _ hs

theorem MovesKeep.ageClock (old : ClockState) (n : Nat) (new : ClockState) (hs : P s) : P (ageClock old n new s) := by
  unfold Machine.ageClock
  split
  · exact k.reported _ _ _ _ (k.clock _ _ hs)
  · exact hs

/-! ### Return lane -/

theorem MovesKeep.testRelease (i : Nat) (hs : P s) : P (testRelease i s) := by
  unfold Machine.testRelease
  split
  · exact k.updLane _ _ (fun _ => rfl) (k.origin _ _ _ hs)
  · exact hs

theorem MovesKeep.setOccupancy (i v : Nat) (hs : P s) : P (setOccupancy i v s) := by
  have changed : KeepsFlags (fun r => { r with lane := { r.lane with occupancy := v } }) := fun _ => ⟨rfl, rfl, rfl⟩
  exact k.ride _ _ _ (changed.ite (reestimate_flags.comp changed)) hs

theorem MovesKeep.raiseOccupancy (i guests : Nat) (hs : P s) : P (raiseOccupancy i guests s) := by
  have raised := k.setOccupancy i (min Config.maxOccupancy ((rideAt i s).lane.occupancy + guests)) hs
  have reported := iteInduction (motive := P) (c := Config.maxOccupancy < (rideAt i s).lane.occupancy + guests)
    (fun _ => k.reported .queueClamp i ((rideAt i s).lane.occupancy + guests - Config.maxOccupancy) _ raised)
    (fun _ => raised)
  exact iteInduction (fun _ => k.testRelease _ reported) (fun _ => reported)

theorem MovesKeep.lowerOccupancy (i guests : Nat) (hs : P s) : P (lowerOccupancy i guests s) := by
  unfold Machine.lowerOccupancy
  dsimp only
  split
  · exact k.reported _ _ _ _ (k.setOccupancy _ _ hs)
  · exact k.setOccupancy _ _ hs

theorem MovesKeep.addBoardings (i guests : Nat) (hs : P s) : P (addBoardings i guests s) :=
  k.testRelease _ (k.updLane _ _ (fun _ => rfl) hs)

theorem MovesKeep.takeReleased (i n : Nat) (hs : P s) : P (takeReleased i n s) := by
  unfold Machine.takeReleased
  split
  · exact k.testRelease _ (k.updLane _ _ (fun _ => rfl) (k.lowerOccupancy _ _ hs))
  · exact k.reported _ _ _ _ (k.lowerOccupancy _ _ hs)

theorem MovesKeep.releaseDue (i : Nat) (hs : P s) : P (releaseDue i s) := by
  unfold Machine.releaseDue
  split
  · split
    · exact k.testRelease _ (k.reported _ _ _ _ (k.updLane _ _ (fun _ => rfl) hs))
    · exact hs
  · exact hs

theorem MovesKeep.holdDue (slot : Nat) (hs : P s) : P (holdDue slot s) := by
  unfold Machine.holdDue
  split
  · split
    · exact k.expireHold _ _ hs
    · exact hs
  · exact hs

/-! ### Ride table -/

theorem MovesKeep.openOutage (i : Nat) (hs : P s) : P (openOutage i s) := by
  unfold Machine.openOutage
  refine k.ride _ _ _ (fun _ => ⟨rfl, rfl, rfl⟩) ?_
  split
  · exact hs
  · exact k.reported _ _ _ _ hs

theorem MovesKeep.enterState (i : Nat) (new : RideState) (hs : P s) : P (enterState i new s) := by
  have changed := k.reported .rideState i (twoCodes (rideCode (rideAt i s).state) (rideCode new)) _
    (k.ride i (fun r => { r with state := new }) s (fun _ => ⟨rfl, rfl, rfl⟩) hs)
  have estimated := fun u hu => k.ride i _ u (estimatorEnters_flags (nominalRate i u) (rideAt i s).state new) hu
  have unheld := iteInduction (motive := P) (c := new = .closed)
    (fun _ => k.releaseHoldsOn i (estimated _ changed)) (fun _ => estimated _ changed)
  exact iteInduction (fun _ => k.testRelease _ unheld) (fun _ => unheld)

theorem MovesKeep.moveRide (i : Nat) (new : RideState) (hs : P s) : P (moveRide i new s) := by
  unfold Machine.moveRide
  refine k.enterState _ _ ?_
  split
  · exact k.openOutage i hs
  · split
    · exact k.ride _ _ _ (fun _ => ⟨rfl, rfl, rfl⟩) hs
    · exact hs

theorem MovesKeep.takeRideState (i code : Nat) (hs : P s) : P (takeRideState i code s) := by
  unfold Machine.takeRideState
  split
  · exact hs
  · split
    · exact k.ride _ _ _ (fun _ => ⟨rfl, rfl, rfl⟩) hs
    · split
      · exact hs
      · exact k.moveRide _ _ hs

theorem MovesKeep.closeIfOpen (i : Nat) (hs : P s) : P (closeIfOpen i s) := by
  unfold Machine.closeIfOpen
  split
  · exact hs
  · exact k.moveRide _ _ hs

theorem MovesKeep.setStandby (i v : Nat) (hs : P s) : P (setStandby i v s) :=
  have changed : KeepsFlags (fun r => { r with q := v }) := fun _ => ⟨rfl, rfl, rfl⟩
  k.ride _ _ _ (keepsFlags_id.ite (reestimate_flags.comp changed)) hs

theorem MovesKeep.takeEntries (i delta : Nat) (hs : P s) : P (takeEntries i delta s) := by
  have moved := k.setStandby i (min Config.maxOccupancy ((rideAt i s).q + delta))
    (k.updTotals i (fun t => { t with entries := addTotal t.entries delta }) hs)
  unfold Machine.takeEntries
  dsimp only
  split
  · exact k.reported _ _ _ _ moved
  · exact moved

theorem MovesKeep.takeBoardings (i delta : Nat) (hs : P s) : P (takeBoardings i delta s) := by
  have moved := k.setStandby i ((rideAt i s).q - delta)
    (k.updTotals i (fun t => { t with boardings := addTotal t.boardings delta }) hs)
  unfold Machine.takeBoardings
  refine k.addBoardings _ _ ?_
  split
  · exact k.reported _ _ _ _ moved
  · exact moved

theorem MovesKeep.takeDelta (n : Nat) (role : Role) (i delta new : Nat) (hs : P s) :
    P (takeDelta n role i delta new s) := by
  unfold Machine.takeDelta
  split
  · exact hs
  · split
    · split
      · exact k.takeEntries _ _ hs
      · exact k.takeBoardings _ _ hs
    · exact k.reported _ _ _ _ (k.counted _ _ hs)

/-- A count's effect but for the baseline it stores. -/
theorem MovesKeep.takeCount (n : Nat) (st : Station) (new : Nat) (hb : P (setBaseline n new s)) :
    P (takeCount n st new s) := by
  unfold Machine.takeCount
  dsimp only
  split
  · split
    · exact k.takeDelta _ _ _ _ _ hb
    · exact hb
  · exact hb

theorem MovesKeep.takeDispatch (i offered filled : Nat) (hs : P s) : P (takeDispatch i offered filled s) := by
  unfold Machine.takeDispatch
  have totalled := k.updTotals i (fun t => { t with seats := addTotal t.seats (min filled offered) }) hs
  dsimp only
  split
  · split
    · refine k.ride _ _ _ (sampleDispatch_flags _ _ _) ?_
      split
      · exact k.counted _ _ totalled
      · exact totalled
    · exact totalled
  · exact hs

theorem MovesKeep.calendarReconfigured (i : Nat) (old new : RideCfg) (oldRate newRate : Nat) (hs : P s) :
    P (calendarReconfigured i old new oldRate newRate s) := by
  unfold Machine.calendarReconfigured
  split
  · exact iteInduction (fun _ => hs) (fun _ => k.setRing _ _ hs)
  · split
    · exact k.setRing _ _ hs
    · exact hs

theorem MovesKeep.reconfigureRide (i : Nat) (old new : RideCfg) (hs : P s) : P (reconfigureRide i old new s) := by
  have estimated := k.ride i _ _ (estimatorReconfigured_flags old new (Machine.classRate new.classNo s))
    (k.ride i (fun r => { r with cfg := some new }) s (fun _ => ⟨rfl, rfl, rfl⟩) hs)
  have calendar := k.calendarReconfigured i old new (Machine.classRate old.classNo s)
    (Machine.classRate new.classNo s) estimated
  exact iteInduction (fun _ => calendar) (fun _ => k.testRelease _ calendar)

theorem MovesKeep.storeRideCfg (i : Nat) (c : RideCfg) (hs : P s) : P (storeRideCfg i c s) := by
  unfold Machine.storeRideCfg
  split
  · exact k.configured _ _ _ hs
  · exact k.reconfigureRide _ _ _ hs

theorem MovesKeep.classChanged (i : Nat) (hs : P s) : P (classChanged i s) := by
  have clamped : KeepsFlags (clampThroughput (nominalRate i s)) := fun _ => ⟨rfl, rfl, rfl⟩
  exact k.setRing _ _ (k.ride _ _ _ (clamped.ite (reestimate_flags.comp clamped)) hs)

theorem MovesKeep.storeClassRate (classNo rate : Nat) (hs : P s) : P (storeClassRate classNo rate s) := by
  unfold Machine.storeClassRate
  split
  · exact hs
  · refine foldl_induct (k.classRate _ _ _ hs) fun t i h => ?_
    split
    · exact k.classChanged i h
    · exact h

/-! ### Requests -/

theorem MovesKeep.serveOffer (rx : LineRx) (token : List Byte) (i party : Nat) (recent : List Nat) (w : Window)
    (hs : P s) : P (serveOffer rx token i party recent w s) :=
  k.counted _ _ (k.answerField _ _ (k.setRecent _ _ (k.token _ _ (k.hold _ _ (k.updWindow _ _ _ hs)))))

theorem MovesKeep.limitAndSearch (rx : LineRx) (token : List Byte) (i party : Nat) (hs : P s) :
    P (limitAndSearch rx token i party s) := by
  have pruned := k.setRecent i (prunedRecent i s) hs
  unfold Machine.limitAndSearch
  dsimp only
  split
  · exact k.refuse _ _ _ _ pruned
  · split
    · exact k.refuse _ _ _ _ pruned
    · exact k.serveOffer _ _ _ _ _ _ pruned

theorem MovesKeep.bookAndList (rx : LineRx) (token : List Byte) (i party : Nat) (hs : P s) :
    P (bookAndList rx token i party s) := by
  unfold Machine.bookAndList
  split
  · exact k.refuse _ _ _ _ hs
  · split
    · exact k.refuse _ _ _ _ (k.reported _ _ _ _ hs)
    · split
      · exact k.refuse _ _ _ _ (k.reported _ _ _ _ hs)
      · exact k.limitAndSearch _ _ _ _ hs

theorem MovesKeep.judgeHeld (rx : LineRx) (token : List Byte) (i party : Nat) (hs : P s) :
    P (judgeHeld rx token i party s) := by
  unfold Machine.judgeHeld
  split
  · exact k.refuse _ _ _ _ hs
  · split
    · split
      · exact k.answerField _ _ hs
      · exact k.refuse _ _ _ _ hs
    · exact k.bookAndList _ _ _ _ hs

theorem MovesKeep.takePassReq (rx : LineRx) (hs : P s) : P (takePassReq rx s) := by
  unfold Machine.takePassReq
  split
  · exact k.refuse _ _ _ _ hs
  · exact k.judgeHeld _ _ _ _ hs

theorem MovesKeep.acceptTake (rx : LineRx) (hs : P s) : P (acceptTake rx s) := by
  unfold Machine.acceptTake
  split
  · exact k.refuse _ _ _ _ hs
  · split
    · exact k.refuse _ _ _ _ hs
    · split
      · split
        · exact k.refuse _ _ _ _ hs
        · exact k.refuse _ _ _ _ hs
      · split
        · exact k.refuse _ _ _ _ hs
        · split
          · exact k.refuse _ _ _ _ (k.releaseHold _ _ hs)
          · exact k.answerField _ _ (k.createGranted _ (k.holdFreed _ _ (k.updWindow _ _ _ hs)))

theorem MovesKeep.acceptDrop (rx : LineRx) (hs : P s) : P (acceptDrop rx s) := by
  unfold Machine.acceptDrop
  split
  · exact hs
  · split
    · exact hs
    · split
      · exact k.releaseHold _ _ hs
      · exact k.refuse _ _ _ _ hs

theorem MovesKeep.acceptCancel (rx : LineRx) (hs : P s) : P (acceptCancel rx s) := by
  unfold Machine.acceptCancel
  split
  · exact k.refuse _ _ _ _ hs
  · split
    · exact k.refuse _ _ _ _ hs
    · split
      · exact k.refuse _ _ _ _ hs
      · split
        · exact k.refuse _ _ _ _ hs
        · split
          · exact k.refuse _ _ _ _ hs
          · exact k.answerField _ _ (k.cancelLive _ _ hs)

theorem MovesKeep.admitGuests (rx : LineRx) (i count n : Nat) (p : Pass) (hs : P s) :
    P (admitGuests rx i count n p s) :=
  k.counted _ _ (k.answerField _ _ (k.raiseOccupancy _ _ (k.updTotals _ _ (k.admitOn _ _ _ (k.passLog _ _ _ _ hs)))))

theorem MovesKeep.acceptRedeem (rx : LineRx) (i : Nat) (hs : P s) : P (acceptRedeem rx i s) := by
  unfold Machine.acceptRedeem
  split
  · exact k.refuse _ _ _ _ hs
  · split
    · exact k.refuse _ _ _ _ hs
    · split
      · exact k.refuse _ _ _ _ hs
      · split
        · exact k.refuse _ _ _ _ hs
        · split
          · exact k.refuse _ _ _ _ hs
          · split
            · exact k.refuse _ _ _ _ hs
            · split
              · exact k.refuse _ _ _ _ hs
              · split
                · exact k.refuse _ _ _ _ hs
                · exact k.admitGuests _ _ _ _ _ hs

/-! ### Effects on the ride a station is bound to -/

theorem MovesKeep.dispatchEffect (rx : LineRx) (st : Station) (hs : P s) : P (dispatchEffect rx st s) := by
  unfold Machine.dispatchEffect
  split
  · exact k.takeDispatch _ _ _ hs
  · exact hs

theorem MovesKeep.rideStateEffect (rx : LineRx) (st : Station) (hs : P s) : P (rideStateEffect rx st s) := by
  unfold Machine.rideStateEffect
  split
  · exact k.takeRideState _ _ hs
  · exact hs

theorem MovesKeep.releasedEffect (rx : LineRx) (st : Station) (hs : P s) : P (releasedEffect rx st s) := by
  unfold Machine.releasedEffect
  split
  · split
    · exact k.takeReleased _ _ hs
    · exact hs
  · exact hs

theorem MovesKeep.redeemEffect (rx : LineRx) (st : Station) (hs : P s) : P (redeemEffect rx st s) := by
  unfold Machine.redeemEffect
  split
  · exact k.acceptRedeem _ _ hs
  · exact hs

/-! ### Boards -/

theorem MovesKeep.placeRewritten (n : Nat) (b : BoardRec) (f : Frame) (hs : P s) : P (placeRewritten n b f s) := by
  unfold Machine.placeRewritten
  dsimp only
  split
  · exact k.board _ _ _ (k.transit _ _ _ hs)
  · exact k.transit _ _ _ hs

theorem MovesKeep.refreshDue (n : Nat) (hs : P s) : P (refreshDue n s) := by
  unfold Machine.refreshDue
  split
  · split
    · refine k.board _ _ _ ?_
      split
      · exact k.origin _ _ _ hs
      · exact hs
    · exact hs
  · exact hs

/-! ### Management commands -/

theorem MovesKeep.enterDevice (new : DeviceState) (hs : P s) : P (enterDevice new s) :=
  k.reported _ _ _ _ (k.device _ _ hs)

theorem MovesKeep.buildRings (hs : P s) : P (buildRings s) := by
  refine foldl_induct hs fun t i h => ?_
  split
  · exact k.setRing _ _ h
  · exact h

theorem MovesKeep.beginDay (hs : P s) : P (beginDay s) :=
  k.enterDevice _ (k.buildRings (k.expired _ _ (k.everyRide dayRecord _ (fun _ => ⟨rfl, rfl, rfl⟩) hs)))

theorem MovesKeep.endDay (hs : P s) : P (endDay s) :=
  k.enterDevice _ (k.cursor _ _ (foldl_induct hs fun _ i h => k.closeIfOpen i h))

theorem MovesKeep.purgeFreed (cursor : Nat) (hs : P s) : P (purgeFreed cursor s) :=
  foldl_induct hs fun _ e h => k.freePass e.1 e.2 h

theorem MovesKeep.completePurge (hs : P s) : P (completePurge s) :=
  k.enterDevice _ (k.cursor _ _ (k.everyRide (fun r => { r with ring := [] }) _ (fun _ => ⟨rfl, rfl, rfl⟩) hs))

theorem MovesKeep.runLoadPark (params : List Byte) (hs : P s) : P (runLoadPark params s).1 := by
  refine withBytes_keeps ?_ hs
  split
  · exact k.settings _ _ hs
  · exact hs

theorem MovesKeep.runLoadClass (params : List Byte) (hs : P s) : P (runLoadClass params s).1 := by
  refine withBytes_keeps ?_ hs
  dsimp only
  split
  · exact hs
  · split
    · exact hs
    · exact k.storeClassRate _ _ hs

theorem MovesKeep.runLoadRide (params : List Byte) (hs : P s) : P (runLoadRide params s).1 := by
  refine withBytes_keeps ?_ hs
  dsimp only
  split
  · exact hs
  · split
    · exact hs
    · exact k.storeRideCfg _ _ hs

theorem MovesKeep.runUnloadRide (params : List Byte) (hs : P s) : P (runUnloadRide params s).1 := by
  refine onRide_keeps (fun i _ _ => ?_) hs
  split
  · exact hs
  · exact k.ride _ _ _ (fun _ => ⟨rfl, rfl, rfl⟩) hs

theorem MovesKeep.runOpenRide (params : List Byte) (hs : P s) : P (runOpenRide params s).1 := by
  refine onRide_keeps (fun i _ _ => ?_) hs
  split
  · exact hs
  · split
    · exact hs
    · exact k.moveRide i .opened hs

theorem MovesKeep.runCloseRide (params : List Byte) (hs : P s) : P (runCloseRide params s).1 :=
  onRide_keeps (fun _ _ _ => k.closeIfOpen _ hs) hs

theorem MovesKeep.runSetQueue (params : List Byte) (hs : P s) : P (runSetQueue params s).1 := by
  refine withBytes_keeps (onRide_keeps (fun i _ _ => ?_) hs) hs
  dsimp only
  have first : P (if u16At params 1 = Config.noMinute then s
      else Machine.setStandby i (min Config.maxOccupancy (u16At params 1)) s) := by
    split
    · exact hs
    · exact k.setStandby _ _ hs
  split
  · exact first
  · exact k.testRelease _ (k.setOccupancy _ _ first)

theorem MovesKeep.runLoadBoard (params : List Byte) (hs : P s) : P (runLoadBoard params s).1 := by
  refine withBytes_keeps ?_ hs
  split
  · exact hs
  · split
    · exact hs
    · split
      · unfold removeBoardRecord
        split
        · exact k.boardFreed _ _ hs
        · exact hs
      · unfold loadBoardRecord
        dsimp only
        split
        · exact hs
        · split
          · exact hs
          · split
            · exact hs
            · split
              · exact hs
              · exact k.board _ _ _ hs

theorem MovesKeep.runLoadSymbols (params : List Byte) (hs : P s) : P (runLoadSymbols params s).1 := by
  refine withBytes_keeps ?_ hs
  split
  · exact hs
  · exact k.symbolSet _ _ _ hs

theorem MovesKeep.runMakeReady (params : List Byte) (hs : P s) : P (runMakeReady params s).1 := by
  unfold Machine.runMakeReady
  split
  · exact hs
  · split
    · exact hs
    · exact k.enterDevice .ready hs

theorem MovesKeep.runDayBegin (params : List Byte) (hs : P s) : P (runDayBegin params s).1 := by
  unfold Machine.runDayBegin
  split
  · exact hs
  · split
    · exact hs
    · dsimp only
      exact k.beginDay hs

theorem MovesKeep.runDayEnd (params : List Byte) (hs : P s) : P (runDayEnd params s).1 := by
  unfold Machine.runDayEnd
  split
  · exact hs
  · exact k.endDay hs

theorem MovesKeep.runPurge (params : List Byte) (hs : P s) : P (runPurge params s).1 := by
  unfold Machine.runPurge
  split
  · exact hs
  · dsimp only
    split
    · exact k.completePurge (k.purgeFreed _ hs)
    · exact k.cursor _ _ (k.purgeFreed _ hs)

theorem MovesKeep.runSetMask (params : List Byte) (hs : P s) : P (runSetMask params s).1 := by
  refine withBytes_keeps ?_ hs
  split
  · exact hs
  · exact k.mask _ _ hs

theorem MovesKeep.issueFor (token : List Byte) (i party : Nat) (hs : P s) : P (issueFor token i party s).1 := by
  unfold Machine.issueFor
  split
  · exact hs
  · split
    · exact hs
    · split
      · exact hs
      · split
        · exact k.reported _ _ _ _ hs
        · exact k.createCourtesy _ _ _ hs

theorem MovesKeep.runIssueCourtesy (params : List Byte) (hs : P s) : P (runIssueCourtesy params s).1 := by
  refine withBytes_keeps ?_ hs
  dsimp only
  split
  · exact hs
  · split
    · exact hs
    · split
      · exact hs
      · split
        · exact hs
        · split
          · exact hs
          · split
            · exact hs
            · split
              · exact hs
              · exact k.issueFor _ _ _ hs

theorem MovesKeep.runCancelPass (params : List Byte) (hs : P s) : P (runCancelPass params s).1 := by
  refine withBytes_keeps ?_ hs
  dsimp only
  split
  · exact hs
  · split
    · exact hs
    · exact k.cancelLive _ _ hs

theorem MovesKeep.runReadCounters (params : List Byte) (hs : P s) : P (runReadCounters params s).1 := by
  refine withBytes_keeps ?_ hs
  dsimp only
  split
  · exact hs
  · exact k.cleared _ hs

end

/-- Queries answer from the state and change nothing (R121, R185 to R187). -/
theorem runQueryToken_state (params : List Byte) (s : State) : (runQueryToken params s).1 = s := by
  refine withBytes_keeps (P := (· = s)) ?_ rfl
  (repeat' split) <;> rfl

theorem runQueryPasses_state (params : List Byte) (s : State) : (runQueryPasses params s).1 = s := by
  refine withBytes_keeps (P := (· = s)) ?_ rfl
  dsimp only
  (repeat' split) <;> rfl

theorem runQueryStations_state (params : List Byte) (s : State) : (runQueryStations params s).1 = s := by
  refine withBytes_keeps (P := (· = s)) ?_ rfl
  dsimp only
  split <;> rfl

theorem runQueryRide_state (params : List Byte) (s : State) : (runQueryRide params s).1 = s :=
  onRide_keeps (P := (· = s)) (fun _ _ _ => rfl) rfl

theorem runQueryWindows_state (params : List Byte) (s : State) : (runQueryWindows params s).1 = s :=
  onRide_keeps (P := (· = s)) (fun _ _ _ => rfl) rfl

/-- Every command of Table 1-5 is made of the moves, but for the two that load and remove a station. -/
theorem MovesKeep.commandFor {P : State → Prop} (k : MovesKeep P) {s : State} (params : List Byte) (hs : P s)
    (hload : P (runLoadStation params s).1) (hremove : P (runRemoveStation params s).1) (code : Byte) :
    P (commandFor code params s).1 := by
  generalize hrun : Machine.commandFor code = run
  unfold Machine.commandFor at hrun
  split at hrun <;> subst hrun
  · exact hs
  · exact k.runLoadPark params hs
  · exact k.runLoadClass params hs
  · exact hload
  · exact hremove
  · exact k.runLoadRide params hs
  · exact k.runUnloadRide params hs
  · exact k.runLoadBoard params hs
  · exact k.runLoadSymbols params hs
  · exact k.runMakeReady params hs
  · exact k.runDayBegin params hs
  · exact k.runDayEnd params hs
  · exact k.runPurge params hs
  · exact k.runOpenRide params hs
  · exact k.runCloseRide params hs
  · exact k.runSetQueue params hs
  · exact k.runSetMask params hs
  · exact k.runIssueCourtesy params hs
  · exact k.runCancelPass params hs
  · exact (runQueryRide_state params s).symm ▸ hs
  · exact (runQueryWindows_state params s).symm ▸ hs
  · exact (runQueryToken_state params s).symm ▸ hs
  · exact (runQueryPasses_state params s).symm ▸ hs
  · exact (runQueryStations_state params s).symm ▸ hs
  · exact k.runReadCounters params hs
  · exact hs

/-! ### The moves that are not an owner's -/

/-- The operations of supervision and of the station table keep a property. -/
structure StationsKeep (P : State → Prop) : Prop where
  heard : ∀ n st s, tblGet s.stations n = some st → P s → P (hear n st s)
  baseline : ∀ n v s, P s → P (setBaseline n v s)
  silent : ∀ n st s, tblGet s.stations n = some st → P s → P (goSilent n st s)
  stored : ∀ n st s, st.supervision ≠ .silent → P s → P (storeStation n st s)
  removed : ∀ n s, P s → P (removeStation n s)

/-- The link changes, the transmitters, the RESET pin and the queue of commands keep a property. -/
structure LinksKeep (P : State → Prop) : Prop where
  waiting : ∀ l s, P s → P { s with pending := l }
  down : ∀ p s, s.resetHeld = false → (portUnit p s).linkUp = true → P s → P (dropLink p s)
  up : ∀ p s, s.resetHeld = false → (portUnit p s).linkUp = false → P s → P (raiseLink p s)
  noted : ∀ p up s, s.resetHeld = true → P s → P (noteLink p up s)
  sending : ∀ p s, P s → P (startSending p s)
  sent : ∀ p s, P s → P (finishSending p s)
  resetHeld : ∀ s, P s → P { s with resetHeld := true }

section
variable {P : State → Prop}

theorem StationsKeep.runLoadStation (ks : StationsKeep P) {s : State} (params : List Byte) (hs : P s) :
    P (runLoadStation params s).1 := by
  refine withBytes_keeps ?_ hs
  dsimp only
  split
  · exact hs
  · split
    · exact hs
    · split
      · exact hs
      · split
        · exact hs
        · exact ks.stored _ _ _ (by simp [loadedStation]) hs

theorem StationsKeep.runRemoveStation (ks : StationsKeep P) {s : State} (params : List Byte) (hs : P s) :
    P (runRemoveStation params s).1 := by
  refine withBytes_keeps ?_ hs
  split
  · exact ks.removed _ _ hs
  · exact hs

theorem StationsKeep.silenceDue (ks : StationsKeep P) {s : State} (n : Nat) (hs : P s) : P (silenceDue n s) := by
  unfold Machine.silenceDue
  split
  · split
    · exact ks.silent _ _ _ ‹_› hs
    · exact hs
  · exact hs

/-- Every effect of a command is made of the moves. -/
theorem EffectsKeep.of_moves (k : MovesKeep P) (ks : StationsKeep P) (kl : LinksKeep P) : EffectsKeep P where
  waiting := kl.waiting
  transit := k.transit
  answer := k.origin .park
  counted := k.counted
  count n st v s h hs := k.takeCount n st v (ks.baseline n v _ (ks.heard n st s h hs))
  dispatch rx n st s h hs := k.dispatchEffect rx st (ks.heard n st s h hs)
  rideState rx n st s h hs := k.rideStateEffect rx st (ks.heard n st s h hs)
  released rx n st s h hs := k.releasedEffect rx st (ks.heard n st s h hs)
  passReq rx n st s h hs := k.takePassReq rx (ks.heard n st s h hs)
  take rx n st s h hs := k.acceptTake rx (ks.heard n st s h hs)
  drop rx n st s h hs := k.acceptDrop rx (ks.heard n st s h hs)
  cancel rx n st s h hs := k.acceptCancel rx (ks.heard n st s h hs)
  redeem rx n st s h hs := k.redeemEffect rx st (ks.heard n st s h hs)
  board n b f _ _ hs := k.placeRewritten n b f hs
  time v _ _ hs := k.takeTime v hs
  command code params _ hs :=
    k.commandFor params hs (ks.runLoadStation params hs) (ks.runRemoveStation params hs) code
  second _ hs := k.tickSecond hs
  clockAge old n new _ _ _ hs := k.ageClock old n new hs
  silence n _ hs := ks.silenceDue n hs
  hold n _ hs := k.holdDue n hs
  release n _ hs := k.releaseDue n hs
  refresh n _ hs := k.refreshDue n hs
  linkDown := kl.down
  linkUp := kl.up
  linkNoted := kl.noted
  sending := kl.sending
  sent := kl.sent
  resetHeld := kl.resetHeld

end

end Sys2Proof.Machine
end

section
/-! ## Queues and counters stay bounded -/

namespace Sys2Proof.Machine

open Sys2Proof.Claims

/-- Every move keeps the bounds of queues, reports and counters. -/
theorem ports_moves : MovesKeep PortsSound where
  transit p f _ h := placeTransit_ports p f h
  origin p f _ h := placeOrigin_ports p f h
  counted name _ h := bump_ports name h
  cleared _ h := ⟨h.toPortsBounded.with_counters _ (by simp [Counters.zero, counterValues]), h.heldBack⟩
  reported kind subject detail _ h := report_ports kind subject detail h
  ride _ _ _ _ h := h.of_same (by simp [SamePorts])
  everyRide _ _ _ h := h.of_same (by simp [SamePorts])
  configured _ _ _ h := h.of_same (by simp [SamePorts])
  pass _ _ _ h := h.of_same (by simp [SamePorts])
  passFreed _ _ h := h.of_same (by simp [SamePorts])
  token _ _ h := h.of_same (by simp [SamePorts])
  hold _ _ h := h.of_same (by simp [SamePorts])
  holdFreed _ _ h := h.of_same (by simp [SamePorts])
  expired _ _ h := h.of_same (by simp [SamePorts])
  board _ _ _ h := h.of_same (by simp [SamePorts])
  boardFreed _ _ h := h.of_same (by simp [SamePorts])
  classRate _ _ _ h := h.of_same (by simp [SamePorts])
  symbolSet _ _ _ h := h.of_same (by simp [SamePorts])
  clock _ _ h := h.of_same (by simp [SamePorts])
  device _ _ h := h.of_same (by simp [SamePorts])
  cursor _ _ h := h.of_same (by simp [SamePorts])
  settings _ _ h := h.of_same (by simp [SamePorts])
  mask _ _ h := h.of_same (by simp [SamePorts])

/-- A recomputation of silence conditions reaches the ports by a RELEASE alone (R16, R156). -/
theorem syncSilence_ports (i : Nat) {s : State} (h : PortsSound s) : PortsSound (syncSilence i s) := by
  have hcontrol : PortsSound (syncControlSilence i (syncCounterSilence i s)) := h.of_same (by simp [SamePorts])
  unfold syncSilence syncGateSilence
  split
  · exact hcontrol
  · unfold setGateSilence
    dsimp only
    split
    · exact hcontrol.of_same (by simp [SamePorts])
    · exact ports_moves.testRelease i (hcontrol.of_same (by simp [SamePorts]))

theorem syncStation_ports (st : Station) {s : State} (h : PortsSound s) : PortsSound (syncStation st s) := by
  unfold syncStation
  split
  · split
    · exact syncSilence_ports _ h
    · exact h
  · exact h

theorem leaveTable_ports (old : Option Station) {s : State} (h : PortsSound s) : PortsSound (leaveTable old s) := by
  unfold leaveTable
  split
  · exact iteInduction (fun _ => syncStation_ports _ h) (fun _ => h)
  · exact h

theorem ports_stations : StationsKeep PortsSound where
  heard n st s _ h := by
    have updated : PortsSound (putStation n (heard s.clock.elapsed st) s) := h.of_same (by simp [SamePorts])
    exact iteInduction (fun _ => syncStation_ports _ (report_ports _ _ _ updated)) (fun _ => updated)
  baseline _ _ _ h := h.of_same (by simp [SamePorts])
  silent _ _ _ _ h := syncStation_ports _ (report_ports _ _ _ (h.of_same (by simp [SamePorts])))
  stored n st s _ h :=
    have unbound : PortsSound (putStation n { st with binding := none } s) := h.of_same (by simp [SamePorts])
    (leaveTable_ports (tblGet s.stations n) unbound).of_same (by simp [SamePorts, storeStation])
  removed n s h :=
    have erased : PortsSound { s with stations := tblErase s.stations n } := h.of_same (by simp [SamePorts])
    leaveTable_ports (tblGet s.stations n) erased

theorem ports_links : LinksKeep PortsSound where
  waiting _ _ h := h.of_same (by simp [SamePorts])
  down p _ _ _ h := dropLink_ports p h
  up p _ _ _ h := raiseLink_ports p h
  noted p up _ hheld h := noteLink_ports p up hheld h
  sending p _ h := startSending_ports p h
  sent p _ h := finishSending_ports p h
  resetHeld _ h := resetHeld_ports h

/-- Settles O54: the bounds are kept by every move of which the effects are made. -/
theorem queuesAndCountersStayBounded : Obligations.QueuesAndCountersStayBounded := by
  intro s t h ht
  rw [← portsSound_iff] at h ⊢
  exact step_keeps (EffectsKeep.of_moves ports_moves ports_stations ports_links)
    (fun straps s _ => resetState_ports straps s) h ht

end Sys2Proof.Machine
end

section
/-! ## Silence and the station table (R13 to R17) -/

namespace Sys2Proof.Machine

open Sys2Proof.Claims

/-! ### Tests over a table -/

/-- A record that passes a test as the one it replaces does, or that fails it where there was none, changes no test over
the table. -/
theorem any_tblSet {α : Type} (t : List (Nat × α)) (n : Nat) (v : α) (p : Nat × α → Bool)
    (h : (tblGet t n).any (fun w => p (n, w)) = p (n, v)) : (tblSet t n v).any p = t.any p := by
  induction t with
  | nil => simpa [tblSet, tblGet] using h.symm
  | cons e rest ih =>
    obtain ⟨m, w⟩ := e
    simp only [tblGet] at h
    simp only [tblSet]
    split at h
    · rename_i hmn
      subst hmn
      have hp : p (m, v) = p (m, w) := by simpa using h.symm
      simp [hp]
    · rename_i hmn
      have hrest := ih h
      split
      · have habsent : p (n, v) = true → rest.any p = true := by
          intro hp
          rw [hp, Option.any_eq_true] at h
          obtain ⟨w', hget, hp'⟩ := h
          exact List.any_eq_true.2 ⟨(n, w'), mem_of_tblGet _ _ _ hget, hp'⟩
        cases hp : p (n, v) with
        | false => simp [hp]
        | true => simp [hp, habsent hp]
      · simp [Ne.symm hmn, hrest]

/-- A record that fails a test can be freed. -/
theorem any_tblErase {α : Type} {t : List (Nat × α)} (hw : tblWf t) (n : Nat) (p : Nat × α → Bool)
    (h : ∀ v, tblGet t n = some v → p (n, v) = false) : (tblErase t n).any p = t.any p := by
  rw [Bool.eq_iff_iff, List.any_eq_true, List.any_eq_true]
  constructor
  · rintro ⟨e, hmem, hp⟩
    exact ⟨e, ((mem_tblErase t n e).1 hmem).1, hp⟩
  · rintro ⟨⟨m, v⟩, hmem, hp⟩
    refine ⟨(m, v), (mem_tblErase t n _).2 ⟨hmem, ?_⟩, hp⟩
    rintro rfl
    simp [h v (tblGet_of_mem t hw _ v hmem)] at hp

/-! ### Flags of a ride, silences of the table -/

/-- STALE, NO_CONTROL and gate silence as the blocks hold them of a ride. -/
abbrev flagsOf (r : Ride) : Bool × Bool × Bool := (r.est.stale, r.noControl, r.lane.gateSilence)

/-- The three silence conditions as the station table derives them (R15). -/
abbrev silencesOf (i : Nat) (s : State) : Bool × Bool × Bool :=
  (counterSilence i s, controlSilence i s, gateSilence i s)

theorem handedOn_iff (i : Nat) (s : State) : SilenceHandedOn i s ↔ flagsOf (rideAt i s) = silencesOf i s := by
  simp [SilenceHandedOn]

theorem KeepsFlags.flags {f : Ride → Ride} (hf : KeepsFlags f) (r : Ride) : flagsOf (f r) = flagsOf r := by
  obtain ⟨hstale, hcontrol, hgate⟩ := hf r
  simp [hstale, hcontrol, hgate]

/-- The ride whose silence conditions a record enters: its binding, for a ride-bound role (R15). -/
def boundRide (st : Station) : Option Nat := if rideBound st.role then st.binding else none

theorem syncStation_is (st : Station) (s : State) :
    syncStation st s = match boundRide st with
      | some i => syncSilence i s
      | none => s := by
  unfold syncStation boundRide
  split <;> rfl

/-- The roles of the three silence conditions (R15). -/
def silenceRoles : List (List Role) := [[.entryCounter, .boardCounter], [.rideControl], [.mergeGate]]

/-- A record is silent for the ride it is bound to alone. -/
theorem silentFor_other {roles : List Role} (hroles : roles ∈ silenceRoles) {st : Station} {j : Nat}
    (h : boundRide st ≠ some j) : silentFor roles j st = false := by
  rw [Bool.eq_false_iff]
  intro hs
  simp only [silentFor, Bool.and_eq_true, beq_iff_eq, List.contains_iff_mem] at hs
  obtain ⟨⟨hrole, hbinding⟩, -⟩ := hs
  refine h ?_
  have : rideBound st.role = true := by
    simp only [silenceRoles, List.mem_cons, List.not_mem_nil, or_false] at hroles
    rcases hroles with rfl | rfl | rfl <;> simp only [List.mem_cons, List.not_mem_nil, or_false] at hrole
    · rcases hrole with h | h <;> rw [h] <;> rfl
    · rw [hrole]; rfl
    · rw [hrole]; rfl
  simp [boundRide, this, hbinding]

/-- A record that is not SILENT is silent for no ride. -/
theorem silentFor_of_not_silent (roles : List Role) (j : Nat) {st : Station} (h : st.supervision ≠ .silent) :
    silentFor roles j st = false := by
  simp [silentFor, h]

/-- The silences of a ride read the station table alone. -/
theorem silencesOf_congr {j : Nat} {s t : State} (h : ∀ roles ∈ silenceRoles,
    t.stations.any (fun e => silentFor roles j e.2) = s.stations.any (fun e => silentFor roles j e.2)) :
    silencesOf j t = silencesOf j s := by
  simp only [silencesOf, counterSilence, controlSilence, gateSilence, h _ (List.mem_cons_self ..),
    h [.rideControl] (by simp [silenceRoles]), h [.mergeGate] (by simp [silenceRoles])]

theorem silencesOf_stations (j : Nat) {s t : State} (h : t.stations = s.stations) : silencesOf j t = silencesOf j s := by
  simp only [silencesOf, counterSilence, controlSilence, gateSilence, h]

/-! ### The recomputation of one ride's conditions -/

theorem rideAt_syncCounterSilence_other {i j : Nat} (h : j ≠ i) (s : State) :
    rideAt j (syncCounterSilence i s) = rideAt j s := by
  unfold syncCounterSilence
  split
  · rfl
  · exact rideAt_updRide_other _ _ _ _ h

theorem rideAt_syncControlSilence_other {i j : Nat} (h : j ≠ i) (s : State) :
    rideAt j (syncControlSilence i s) = rideAt j s := by
  unfold syncControlSilence
  split
  · rfl
  · exact rideAt_updRide_other _ _ _ _ h

theorem rideAt_setGateSilence_other {i j : Nat} (h : j ≠ i) (silent : Bool) (s : State) :
    rideAt j (setGateSilence i silent s) = rideAt j s := by
  have set : rideAt j (updLane i (fun l => { l with gateSilence := silent }) s) = rideAt j s :=
    rideAt_updRide_other _ _ _ _ h
  unfold setGateSilence
  dsimp only
  split
  · exact set
  · obtain ⟨-, -, -, hother⟩ := rideAt_testRelease i j (updLane i (fun l => { l with gateSilence := silent }) s)
    exact (hother h).trans set

/-- A recomputation reaches one ride alone (R16). -/
theorem rideAt_syncSilence_other {i j : Nat} (h : j ≠ i) (s : State) : rideAt j (syncSilence i s) = rideAt j s := by
  unfold syncSilence syncGateSilence
  split
  · rw [rideAt_syncControlSilence_other h, rideAt_syncCounterSilence_other h]
  · rw [rideAt_setGateSilence_other h, rideAt_syncControlSilence_other h, rideAt_syncCounterSilence_other h]

theorem rideAt_syncStation_other {st : Station} {j : Nat} (h : boundRide st ≠ some j) (s : State) :
    rideAt j (syncStation st s) = rideAt j s := by
  rw [syncStation_is]
  split
  · rename_i i hi
    exact rideAt_syncSilence_other (fun hij => h (by rw [hi, hij])) s
  · rfl

theorem testRelease_length (i : Nat) (s : State) : (testRelease i s).rides.length = s.rides.length := by
  unfold testRelease
  split
  · simp [sendRelease, updLane]
  · rfl

theorem syncStation_length (st : Station) (s : State) : (syncStation st s).rides.length = s.rides.length := by
  have hcounter : ∀ i s, (syncCounterSilence i s).rides.length = s.rides.length := by
    intro i s; unfold syncCounterSilence; split <;> simp
  have hcontrol : ∀ i s, (syncControlSilence i s).rides.length = s.rides.length := by
    intro i s; unfold syncControlSilence; split <;> simp
  have hgate : ∀ i s, (syncGateSilence i s).rides.length = s.rides.length := by
    intro i s
    unfold syncGateSilence setGateSilence
    dsimp only
    (repeat' split) <;> simp [testRelease_length, updLane]
  rw [syncStation_is]
  split
  · simp [syncSilence, hcounter, hcontrol, hgate]
  · rfl

/-- After the recomputation for a record its ride's conditions are handed on, and another ride's are if they were
before (R16). -/
theorem syncStation_handsOn (st : Station) {j : Nat} {s : State} (hj : j < s.rides.length)
    (h : boundRide st ≠ some j → SilenceHandedOn j s) : SilenceHandedOn j (syncStation st s) := by
  by_cases hb : boundRide st = some j
  · rw [syncStation_is, hb]
    exact syncSilence_handsOn j s hj
  · rw [handedOn_iff, rideAt_syncStation_other hb, silencesOf_stations j (show (syncStation st s).stations = s.stations by simp)]
    exact (handedOn_iff j s).1 (h hb)

/-! ### Records heard, gone silent, stored and removed -/

/-- A record of a known station replaced by one that is silent for the ride as it was. -/
theorem silencesOf_putStation {n j : Nat} {st st' : Station} {s : State} (hget : tblGet s.stations n = some st)
    (h : ∀ roles ∈ silenceRoles, silentFor roles j st' = silentFor roles j st) :
    silencesOf j (putStation n st' s) = silencesOf j s :=
  silencesOf_congr fun roles hroles => any_tblSet _ _ _ _ (by simp [hget, h roles hroles])

/-- A record replaced by one of the same binding changes the silences of no other ride. -/
theorem silencesOf_putStation_other {n j : Nat} {st st' : Station} {s : State} (hget : tblGet s.stations n = some st)
    (hb' : boundRide st' = boundRide st) (hb : boundRide st ≠ some j) :
    silencesOf j (putStation n st' s) = silencesOf j s :=
  silencesOf_putStation hget fun _ hroles => by
    rw [silentFor_other hroles hb, silentFor_other hroles (hb' ▸ hb)]

/-- A record that is not SILENT stored where none was, or one that was not silent for the ride. -/
theorem silencesOf_stored {n j : Nat} {st' : Station} {s : State}
    (hold : ∀ st, tblGet s.stations n = some st → ∀ roles ∈ silenceRoles, silentFor roles j st = false)
    (hnew : st'.supervision ≠ .silent) : silencesOf j (putStation n st' s) = silencesOf j s := by
  refine silencesOf_congr fun roles hroles => any_tblSet _ _ _ _ ?_
  rw [silentFor_of_not_silent roles j hnew]
  cases hget : tblGet s.stations n with
  | none => rfl
  | some st => simp [hold st hget roles hroles]

/-- A record freed that is not silent for the ride. -/
theorem silencesOf_erased {n j : Nat} {s : State} (hw : tblWf s.stations)
    (hold : ∀ st, tblGet s.stations n = some st → ∀ roles ∈ silenceRoles, silentFor roles j st = false) :
    silencesOf j { s with stations := tblErase s.stations n } = silencesOf j s :=
  silencesOf_congr fun roles hroles => any_tblErase hw n _ fun st hst => hold st hst roles hroles

end Sys2Proof.Machine
end

section
/-! ## The silence conditions follow the station table -/

namespace Sys2Proof.Machine

open Sys2Proof.Claims

/-- What every step keeps of the tables and of the silence conditions. -/
structure SilenceSound (s : State) : Prop where
  canonical : s.tablesCanonical
  whole : s.tablesWhole
  follows : s.silenceFollows

theorem silenceSound_iff : SilenceSound s ↔ s.tablesCanonical ∧ s.tablesWhole ∧ s.silenceFollows :=
  ⟨fun h => ⟨h.canonical, h.whole, h.follows⟩, fun ⟨hc, hw, hf⟩ => ⟨hc, hw, hf⟩⟩

variable {s t : State}

/-- All that the condition reads, as it was. -/
abbrev SameTables (t s : State) : Prop :=
  t.stations = s.stations ∧ t.rides = s.rides ∧ t.classes = s.classes ∧ t.symbols = s.symbols ∧
    t.passes = s.passes ∧ t.tokens = s.tokens ∧ t.holds = s.holds ∧ t.boards = s.boards

theorem SilenceSound.stationsWf (h : SilenceSound s) : tblWf s.stations := h.canonical.1

/-- Ride records and tables by key written, the stations as they were. -/
theorem SilenceSound.of_rides (h : SilenceSound s) (hst : t.stations = s.stations)
    (hc : tblWf t.passes ∧ tblWf t.tokens ∧ tblWf t.holds ∧ tblWf t.boards)
    (hw : t.rides.length = s.rides.length ∧ t.classes.length = s.classes.length ∧ t.symbols.length = s.symbols.length)
    (hf : ∀ j < Config.rideCount, flagsOf (rideAt j t) = flagsOf (rideAt j s)) : SilenceSound t where
  canonical := ⟨hst ▸ h.stationsWf, hc⟩
  whole := by
    obtain ⟨hrides, hclasses, hsymbols⟩ := hw
    simpa only [State.tablesWhole, hrides, hclasses, hsymbols] using h.whole
  follows := fun j hj => (handedOn_iff j t).2
    ((hf j hj).trans (((handedOn_iff j s).1 (h.follows j hj)).trans (silencesOf_stations j hst).symm))

theorem SilenceSound.of_same (h : SilenceSound s) (hst : SameTables t s) : SilenceSound t := by
  obtain ⟨h1, h2, h3, h4, h5, h6, h7, h8⟩ := hst
  refine h.of_rides h1 ?_ (by simp [h2, h3, h4]) (fun j _ => by rw [rideAt_congr j s t h2])
  rw [h5, h6, h7, h8]
  exact h.canonical.2

/-- Tables by key and by index written, stations and rides as they were. -/
theorem SilenceSound.of_tables (h : SilenceSound s) (hst : t.stations = s.stations ∧ t.rides = s.rides)
    (hc : tblWf t.passes ∧ tblWf t.tokens ∧ tblWf t.holds ∧ tblWf t.boards)
    (hw : t.classes.length = s.classes.length ∧ t.symbols.length = s.symbols.length) : SilenceSound t :=
  h.of_rides hst.1 hc ⟨by rw [hst.2], hw⟩ (fun j _ => by rw [rideAt_congr j s t hst.2])

/-- A ride record changed without its flags. -/
theorem updRide_silence (i : Nat) {f : Ride → Ride} (hf : KeepsFlags f) (h : SilenceSound s) :
    SilenceSound (updRide i f s) := by
  refine h.of_rides (by simp) h.canonical.2 (by simp) (fun j _ => ?_)
  rw [rideAt_updRide]
  split
  · rename_i hj
    rw [hj.1, hf.flags]
  · rfl

theorem rideAt_map {f : Ride → Ride} {j : Nat} (hj : j < s.rides.length) :
    rideAt j { s with rides := s.rides.map f } = f (rideAt j s) := by
  simp [rideAt, hj]

/-- A ring written is no flag written. -/
theorem setRing_silence (i : Nat) (ring : List Window) (h : SilenceSound s) : SilenceSound (setRing i ring s) :=
  updRide_silence i (f := fun r => { r with ring := ring }) (fun _ => ⟨rfl, rfl, rfl⟩) h

/-- A newly configured ride takes its flags from the station table, where they were already (R40, R42). -/
theorem configureRide_silence (i : Nat) (c : RideCfg) (h : SilenceSound s) : SilenceSound (configureRide i c s) := by
  have set : SilenceSound (updRide i (fun r => recompute (newlyConfigured c (classRate c.classNo s)
      (controlSilence i s) (counterSilence i s) r)) s) := by
    refine h.of_rides (by simp) h.canonical.2 (by simp) (fun j hj => ?_)
    rw [rideAt_updRide]
    split
    · rename_i hij
      obtain ⟨hstale, hcontrol, -⟩ := h.follows j hj
      rw [recompute_flags.flags, ← hij.1]
      simp [newlyConfigured, freshEstimate, hstale, hcontrol]
    · rfl
  exact iteInduction (fun _ => setRing_silence i _ set) (fun _ => set)

theorem putToken_wf (r : TokenRec) (h : tblWf s.tokens) : tblWf (putToken r s).tokens := by
  unfold putToken
  split
  · exact tblErase_wf _ h _
  · exact tblSet_wf _ h _ _

/-- Every move keeps the silence conditions and the form of the tables. -/
theorem silence_moves : MovesKeep SilenceSound where
  transit _ _ _ h := h.of_same (by simp [SameTables])
  origin _ _ _ h := h.of_same (by simp [SameTables])
  counted _ _ h := h.of_same (by simp [SameTables])
  cleared _ h := h.of_same (by simp [SameTables])
  reported _ _ _ _ h := h.of_same (by simp [SameTables])
  ride i _ _ hf h := updRide_silence i hf h
  everyRide f s hf h := by
    refine h.of_rides rfl h.canonical.2 (by simp) (fun j hj => ?_)
    rw [rideAt_map (by rw [h.whole.1]; exact hj), hf.flags]
  configured i c _ h := configureRide_silence i c h
  pass n p _ h := h.of_tables ⟨rfl, rfl⟩ ⟨tblSet_wf _ h.canonical.2.1 n p, h.canonical.2.2⟩ ⟨rfl, rfl⟩
  passFreed n _ h := h.of_tables ⟨rfl, rfl⟩ ⟨tblErase_wf _ h.canonical.2.1 n, h.canonical.2.2⟩ ⟨rfl, rfl⟩
  token r s h := by
    obtain ⟨-, hp, ht, hh⟩ := h.canonical
    refine h.of_tables (by simp) ⟨?_, putToken_wf r ht, ?_⟩ (by simp) <;> simpa using by assumption
  hold r _ h := by
    obtain ⟨-, hp, ht, hh, hb⟩ := h.canonical
    exact h.of_tables ⟨rfl, rfl⟩ ⟨hp, ht, tblSet_wf _ hh _ r, hb⟩ ⟨rfl, rfl⟩
  holdFreed slot _ h := by
    obtain ⟨-, hp, ht, hh, hb⟩ := h.canonical
    exact h.of_tables ⟨rfl, rfl⟩ ⟨hp, ht, tblErase_wf _ hh slot, hb⟩ ⟨rfl, rfl⟩
  expired _ _ h := h.of_same (by simp [SameTables])
  board n b _ h := by
    obtain ⟨-, hp, ht, hh, hb⟩ := h.canonical
    exact h.of_tables ⟨rfl, rfl⟩ ⟨hp, ht, hh, tblSet_wf _ hb n b⟩ ⟨rfl, rfl⟩
  boardFreed n _ h := by
    obtain ⟨-, hp, ht, hh, hb⟩ := h.canonical
    exact h.of_tables ⟨rfl, rfl⟩ ⟨hp, ht, hh, tblErase_wf _ hb n⟩ ⟨rfl, rfl⟩
  classRate _ _ _ h := h.of_tables ⟨rfl, rfl⟩ h.canonical.2 ⟨by simp, rfl⟩
  symbolSet _ _ _ h := h.of_tables ⟨rfl, rfl⟩ h.canonical.2 ⟨rfl, by simp⟩
  clock _ _ h := h.of_same (by simp [SameTables])
  device _ _ h := h.of_same (by simp [SameTables])
  cursor _ _ h := h.of_same (by simp [SameTables])
  settings _ _ h := h.of_same (by simp [SameTables])
  mask _ _ h := h.of_same (by simp [SameTables])

/-! ### The station table -/

/-- The tables are in form, and every ride's flags follow but perhaps those of one ride. -/
structure SilenceSoundBut (b : Option Nat) (s : State) : Prop where
  canonical : s.tablesCanonical
  whole : s.tablesWhole
  follows : ∀ j < Config.rideCount, b ≠ some j → SilenceHandedOn j s

/-- The station table changed, and with it at most one ride's silences. -/
theorem SilenceSound.restationed (h : SilenceSound s) {b : Option Nat} {l : List (Nat × Station)} (hw : tblWf l)
    (hl : ∀ j, b ≠ some j → silencesOf j { s with stations := l } = silencesOf j s) :
    SilenceSoundBut b { s with stations := l } where
  canonical := ⟨hw, h.canonical.2⟩
  whole := h.whole
  follows := fun j hj hb => (handedOn_iff j _).2 (((handedOn_iff j s).1 (h.follows j hj)).trans (hl j hb).symm)

/-- Where no ride is left out, all follow. -/
theorem SilenceSoundBut.sound (h : SilenceSoundBut none s) : SilenceSound s :=
  ⟨h.canonical, h.whole, fun j hj => h.follows j hj (by simp)⟩

theorem SilenceSoundBut.report {b : Option Nat} (h : SilenceSoundBut b s) (kind : ReportKind) (subject detail : Nat) :
    SilenceSoundBut b (report kind subject detail s) where
  canonical := by simpa [State.tablesCanonical] using h.canonical
  whole := by simpa [State.tablesWhole] using h.whole
  follows := fun j hj hb => by
    rw [handedOn_iff, rideAt_report, silencesOf_stations (s := s) j (by simp)]
    exact (handedOn_iff j s).1 (h.follows j hj hb)

/-- The recomputation for a record brings the ride it is bound to back in line (R16). -/
theorem SilenceSoundBut.sync {st : Station} (h : SilenceSoundBut (boundRide st) s) : SilenceSound (syncStation st s) where
  canonical := by simpa [State.tablesCanonical] using h.canonical
  whole := by simpa [State.tablesWhole, syncStation_length] using h.whole
  follows := fun j hj => syncStation_handsOn st (by rw [h.whole.1]; exact hj) (h.follows j hj)

/-- An accepted frame: a SILENT station's ride is recomputed, another's record counted in no silence and counts in
none (R13). -/
theorem hear_silence {n : Nat} {st : Station} (hget : tblGet s.stations n = some st) (h : SilenceSound s) :
    SilenceSound (hear n st s) := by
  have hw := tblSet_wf _ h.stationsWf n (heard s.clock.elapsed st)
  unfold hear
  dsimp only
  split
  · refine SilenceSoundBut.sync ((h.restationed hw fun j hb => ?_).report _ _ _)
    exact silencesOf_putStation_other hget rfl hb
  · rename_i hst
    refine (h.restationed (b := none) hw fun j _ => silencesOf_putStation hget fun roles _ => ?_).sound
    rw [silentFor_of_not_silent _ _ hst, silentFor_of_not_silent _ _ (by simp [heard])]

theorem goSilent_silence {n : Nat} {st : Station} (hget : tblGet s.stations n = some st) (h : SilenceSound s) :
    SilenceSound (goSilent n st s) :=
  SilenceSoundBut.sync ((h.restationed (tblSet_wf _ h.stationsWf n _) fun _ hb =>
    silencesOf_putStation_other (st' := { st with supervision := .silent, deadline := none }) hget rfl
      hb).report _ _ _)

/-- A count baseline enters no silence condition. -/
theorem setBaseline_silence (n v : Nat) (h : SilenceSound s) : SilenceSound (setBaseline n v s) := by
  unfold setBaseline
  split
  · rename_i st hget
    exact (h.restationed (b := none) (tblSet_wf _ h.stationsWf n _) fun j _ =>
      silencesOf_putStation (st' := { st with baseline := some v }) hget fun _ _ => rfl).sound
  · exact h

/-- The ride a record that leaves the table is recomputed for (R11, R12). -/
def leftRide (old : Option Station) : Option Nat :=
  old.bind fun st => if st.supervision = .silent then boundRide st else none

/-- A record that leaves the table was silent for no ride but the one recomputed. -/
theorem silentFor_left {old : Option Station} {st : Station} (hold : old = some st) {roles : List Role}
    (hroles : roles ∈ silenceRoles) {j : Nat} (hb : leftRide old ≠ some j) : silentFor roles j st = false := by
  subst hold
  by_cases hs : st.supervision = .silent
  · exact silentFor_other hroles (by simpa [leftRide, hs] using hb)
  · exact silentFor_of_not_silent _ _ hs

theorem SilenceSoundBut.leave {old : Option Station} (h : SilenceSoundBut (leftRide old) s) :
    SilenceSound (leaveTable old s) := by
  unfold leaveTable
  split
  · rename_i st
    split
    · rename_i hs
      exact SilenceSoundBut.sync (by simpa [leftRide, hs] using h)
    · rename_i hs
      exact SilenceSoundBut.sound (by simpa [leftRide, hs] using h)
  · exact h.sound

theorem removeStation_silence (n : Nat) (h : SilenceSound s) : SilenceSound (removeStation n s) :=
  SilenceSoundBut.leave (h.restationed (tblErase_wf _ h.stationsWf n) fun _ hb =>
    silencesOf_erased h.stationsWf fun _ hst _ hroles => silentFor_left hst hroles hb)

/-- A stored record is UNHEARD and counts in no silence; the one it replaces leaves the table (R10, R11). -/
theorem storeStation_silence (n : Nat) {st : Station} (hst : st.supervision ≠ .silent) (h : SilenceSound s) :
    SilenceSound (storeStation n st s) := by
  have left : SilenceSound (leaveTable (tblGet s.stations n) (putStation n { st with binding := none } s)) :=
    SilenceSoundBut.leave (h.restationed (tblSet_wf _ h.stationsWf n _) fun _ hb =>
      silencesOf_stored (st' := { st with binding := none })
        (fun _ hold _ hroles => silentFor_left hold hroles hb) hst)
  refine (left.restationed (b := none) (tblSet_wf _ left.stationsWf n st) fun j _ => ?_).sound
  exact silencesOf_stored (fun old hold roles _ => silentFor_of_not_silent _ _ (by
    obtain rfl : { st with binding := none } = old := by simpa [tblGet_tblSet_same] using hold
    exact hst)) hst

theorem silence_stations : StationsKeep SilenceSound where
  heard _ _ _ hget h := hear_silence hget h
  baseline n v _ h := setBaseline_silence n v h
  silent _ _ _ hget h := goSilent_silence hget h
  stored n _ _ hst h := storeStation_silence n hst h
  removed n _ h := removeStation_silence n h

theorem dropLink_tables (p : Port) (s : State) : SameTables (dropLink p s) s := by
  cases p <;> simp [SameTables, dropLink, reportsAtLink]

theorem raiseLink_tables (p : Port) (s : State) : SameTables (raiseLink p s) s := by
  cases p <;> simp [SameTables, raiseLink, reportsAtLink]

theorem startSending_tables (p : Port) (s : State) : SameTables (startSending p s) s := by
  unfold startSending
  dsimp only
  split
  · split
    · simp [SameTables]
    · unfold reportsAfterTake
      split <;> simp [SameTables]
  · simp [SameTables]

theorem silence_links : LinksKeep SilenceSound where
  waiting _ _ h := h.of_same (by simp [SameTables])
  down p s _ _ h := h.of_same (dropLink_tables p s)
  up p s _ _ h := h.of_same (raiseLink_tables p s)
  noted _ _ _ _ h := h.of_same (by simp [SameTables, noteLink])
  sending p s h := h.of_same (startSending_tables p s)
  sent _ _ h := h.of_same (by simp [SameTables, finishSending])
  resetHeld _ h := h.of_same (by simp [SameTables])

/-- After reset no station is in the table and no flag is set (R22, R188). -/
theorem resetState_silence (straps : BitVec 12) (s : State) : SilenceSound (resetState straps s) where
  canonical := by simp [State.tablesCanonical, resetState, State.reset]
  whole := by simp [State.tablesWhole, resetState, State.reset]
  follows := fun j hj => by
    have : rideAt j (resetState straps s) = Ride.reset := by
      simp [rideAt, resetState, State.reset, hj]
    exact (handedOn_iff j _).2 (by rw [this]; rfl)

/-- Settles O55: every move keeps the flags, and the operations of the station table recompute the ride whose
silences they change. -/
theorem silenceFollowsTheStationTable : Obligations.SilenceFollowsTheStationTable := by
  intro s t h ht
  rw [← silenceSound_iff] at h ⊢
  exact step_keeps (EffectsKeep.of_moves silence_moves silence_stations silence_links)
    (fun straps s _ => resetState_silence straps s) h ht

end Sys2Proof.Machine
end

section
/-! ## Ports, links and reset (R2, R18 to R22) -/

namespace Sys2Proof.Machine

open Sys2Proof.Claims

/-! ### A frame and its queue -/

/-- A port unit written reaches the two ports alone. -/
theorem setPort_only (p : Port) (u : PortUnit) (s : State) :
    setPort p u s = { s with field := (setPort p u s).field, park := (setPort p u s).park } := by
  cases p <;> rfl

theorem placeTransit_joins {p : Port} {s : State} (f : Frame) (hup : (portUnit p s).linkUp = true)
    (hroom : (portUnit p s).transit.length < 64) :
    placeTransit p f s = setPort p { portUnit p s with transit := (portUnit p s).transit ++ [f] } s := by
  simp [placeTransit, transitRoom, hup, Config.transitPlaces, hroom]

theorem placeOrigin_joins {p : Port} {s : State} (f : OriginFrame) (hup : (portUnit p s).linkUp = true)
    (hroom : (portUnit p s).origin.length < 16) :
    placeOrigin p f s = setPort p { portUnit p s with origin := (portUnit p s).origin ++ [f] } s := by
  simp [placeOrigin, originRoom, hup, Config.originPlaces, hroom]

theorem placeTransit_drops {p : Port} {s : State} (f : Frame)
    (h : (portUnit p s).linkUp = false ∨ 64 ≤ (portUnit p s).transit.length) :
    placeTransit p f s = bump (transitDrop p) s := by
  have noroom : transitRoom p s = false := by
    rw [transitRoom, Bool.and_eq_false_iff]
    exact h.imp id (fun hfull => decide_eq_false (Nat.not_lt.2 hfull))
  simp only [placeTransit, noroom, Bool.false_eq_true, if_false]
  cases p <;> rfl

theorem placeOrigin_drops {p : Port} {s : State} (f : OriginFrame)
    (h : (portUnit p s).linkUp = false ∨ 16 ≤ (portUnit p s).origin.length) :
    placeOrigin p f s = bump (originDrop p) s := by
  have noroom : originRoom p s = false := by
    rw [originRoom, Bool.and_eq_false_iff]
    exact h.imp id (fun hfull => decide_eq_false (Nat.not_lt.2 hfull))
  simp only [placeOrigin, noroom, Bool.false_eq_true, if_false]
  cases p <;> rfl

/-- Settles O5: room or none decides. -/
theorem frameJoinsItsQueueOrIsCounted : Obligations.FrameJoinsItsQueueOrIsCounted := by
  refine ⟨fun p f s hup hroom => ?_, fun p f s hup hroom => ?_, fun p f s h => placeTransit_drops f h,
    fun p f s h => placeOrigin_drops f h⟩
  · rw [placeTransit_joins f hup hroom]
    exact ⟨portUnit_setPort .., portUnit_setPort_other .., setPort_only ..⟩
  · rw [placeOrigin_joins f hup hroom]
    exact ⟨portUnit_setPort .., portUnit_setPort_other .., setPort_only ..⟩

/-! ### Links and the arbiter -/

theorem dropLink_is (p : Port) (s : State) :
    dropLink p s = thenReports p
      (setPort p { transit := [], origin := [], sending := none, turn := (portUnit p s).turn, linkUp := false }
        { s with counters := countersFlushed p s }) := by
  have hcount : addCounter (dropCounter p .origin) (flushed .origin (portUnit p s))
      (addCounter (dropCounter p .transit) (flushed .transit (portUnit p s)) s.counters) = countersFlushed p s := by
    have horigin : flushed .origin (portUnit p s) = originFrames (portUnit p s) := by
      simp only [flushed, waitingIn, sendingFrom, originFrames]
      split <;> simp_all
    have htransit : flushed .transit (portUnit p s) = transitFrames (portUnit p s) := by
      simp only [flushed, waitingIn, sendingFrom, transitFrames]
      split <;> simp_all
    rw [horigin, htransit]
    cases p <;> rfl
  simp only [dropLink, hcount]
  cases p <;> rfl

theorem raiseLink_is (p : Port) (s : State) :
    raiseLink p s = thenReports p
      (setPort p { transit := [], origin := [], sending := none, turn := (portUnit p s).turn, linkUp := true } s) := by
  cases p <;> rfl

theorem linksGoDownAndComeUp : Claims.LinksGoDownAndComeUp := by
  refine ⟨fun p s hr hup => ?_, fun p s hr hdown => ?_⟩
  · rw [← dropLink_is]
    show execLinkDown p s = _
    simp [execLinkDown, hr, hup]
  · rw [← raiseLink_is]
    show execLinkUp p s = _
    simp [execLinkUp, hr, hdown]

/-- An internal step runs while RESET is not held. -/
theorem onInside_runs {s : State} (hr : s.resetHeld = false) (effect : State → State) :
    onInside effect s = .next (effect s) := by
  simp [onInside, hr]

/-- An idle transmitter of an UP port sends what the arbiter chose (R20). -/
theorem startSending_chosen {p : Port} {s : State} {q : QueueName} (hup : (portUnit p s).linkUp = true)
    (hidle : (portUnit p s).sending = none) (hq : chosenQueue (portUnit p s) = some q) :
    startSending p s = reportsAfterTake p q (setPort p (takeHead q (portUnit p s)) s) := by
  simp [startSending, hup, hidle, hq]

theorem chosenQueue_transit {u : PortUnit} {a : Frame} {rest : List Frame} (h : u.transit = a :: rest)
    (hturn : u.turn = .transit ∨ u.origin = []) : chosenQueue u = some .transit := by
  unfold chosenQueue
  rcases hturn with ht | ho
  · rw [h, ht]
    split <;> simp_all
  · rw [h, ho]

theorem chosenQueue_origin {u : PortUnit} {a : OriginFrame} {rest : List OriginFrame} (h : u.origin = a :: rest)
    (hturn : u.turn = .origin ∨ u.transit = []) : chosenQueue u = some .origin := by
  unfold chosenQueue
  rcases hturn with ht | ho
  · rw [h, ht]
    split <;> simp_all
  · rw [h, ho]

/-- Without its cause a transmit step changes nothing (log 2). -/
theorem startSending_idle {p : Port} {s : State} (h : (portUnit p s).sending ≠ none ∨ (portUnit p s).linkUp = false ∨
    ((portUnit p s).transit = [] ∧ (portUnit p s).origin = [])) : startSending p s = s := by
  rcases h with h | h | ⟨ht, ho⟩
  · simp [startSending, h]
  · simp [startSending, h]
  · simp [startSending, chosenQueue, ht, ho]

theorem theArbiterAlternates : Claims.TheArbiterAlternates := by
  refine ⟨fun p s a rest hr hup hidle hq hturn => ?_, fun p s a rest hr hup hidle hq hturn => ?_, fun p s hr h => ?_,
    fun p s hr => onInside_runs hr _⟩
  · refine (onInside_runs hr _).trans ?_
    rw [startSending_chosen hup hidle (chosenQueue_transit hq hturn)]
    cases p <;> simp [reportsAfterTake, takeHead, hq, otherQueue]
  · refine (onInside_runs hr _).trans ?_
    rw [startSending_chosen hup hidle (chosenQueue_origin hq hturn)]
    cases p <;> simp [reportsAfterTake, takeHead, hq, otherQueue]
  · refine (onInside_runs hr _).trans ?_
    rw [startSending_idle h]

/-- Settles O8: a link change empties the port, and the arbiter serves the queue it chooses. -/
theorem linksAndTheArbiter : Obligations.LinksAndTheArbiter := ⟨linksGoDownAndComeUp, theArbiterAlternates⟩

/-! ### RESET -/

/-- An entry of a table whose entries are all alike. -/
theorem getD_replicate_of_lt {α : Type} {n i : Nat} (x default : α) (h : i < n) :
    (List.replicate n x).getD i default = x := by
  rw [List.getD_eq_getElem?_getD, List.getElem?_replicate, if_pos h, Option.getD_some]

theorem resetLeavesTheResetState_claim : Claims.ResetLeavesTheResetState := by
  intro straps s
  refine ⟨resetState straps s, rfl, rfl, rfl, rfl, rfl, rfl, rfl, ?_, fun p => ?_, rfl, rfl, fun n hn => ?_,
    fun i hi => ?_, rfl, rfl, rfl, rfl, rfl, rfl, fun set hset symbol hsymbol => ?_, rfl⟩
  · show ∀ v ∈ counterValues Counters.zero, v = 0
    decide
  · cases p <;> exact ⟨rfl, rfl, rfl, rfl, rfl⟩
  · exact getD_replicate_of_lt 0 0 (show n < Config.classCount from hn)
  · exact getD_replicate_of_lt Ride.reset Ride.reset (show i < Config.rideCount from hi)
  · have hcodes : (resetState straps s).symbols.getD set [] = List.replicate 8 0 :=
      getD_replicate_of_lt (List.replicate 8 0) [] (show set < Config.symbolSets from hset)
    rw [symbolCode, hcodes, getD_replicate_of_lt 0 0 hsymbol]

/-- No move writes the straps. -/
theorem straps_moves (x : BitVec 12) : MovesKeep (fun s => s.straps = x) where
  transit _ _ _ h := by simpa using h
  origin _ _ _ h := by simpa using h
  counted _ _ h := h
  cleared _ h := h
  reported _ _ _ _ h := by simpa using h
  ride _ _ _ _ h := h
  everyRide _ _ _ h := h
  configured _ _ _ h := by simpa using h
  pass _ _ _ h := h
  passFreed _ _ h := h
  token _ _ h := by simpa using h
  hold _ _ h := h
  holdFreed _ _ h := h
  expired _ _ h := h
  board _ _ _ h := h
  boardFreed _ _ h := h
  classRate _ _ _ h := h
  symbolSet _ _ _ h := h
  clock _ _ h := h
  device _ _ h := h
  cursor _ _ h := h
  settings _ _ h := h
  mask _ _ h := h

theorem straps_stations (x : BitVec 12) : StationsKeep (fun s => s.straps = x) where
  heard _ _ _ _ h := by simpa using h
  baseline _ _ _ h := by simpa using h
  silent _ _ _ _ h := by simpa using h
  stored _ _ _ _ h := by simpa using h
  removed _ _ h := by simpa [removeStation] using h

theorem startSending_straps (p : Port) (s : State) : (startSending p s).straps = s.straps := by
  unfold startSending
  dsimp only
  split
  · split
    · rfl
    · unfold reportsAfterTake
      split <;> simp
  · rfl

theorem straps_links (x : BitVec 12) : LinksKeep (fun s => s.straps = x) where
  waiting _ _ h := h
  down p _ _ _ h := by cases p <;> simpa [dropLink, reportsAtLink] using h
  up p _ _ _ h := by cases p <;> simpa [raiseLink, reportsAtLink] using h
  noted _ _ _ _ h := by simpa [noteLink] using h
  sending p s h := (startSending_straps p s).trans h
  sent _ _ h := by simpa [finishSending] using h
  resetHeld _ h := h

theorem ownStationChangesOnlyAtReset : Claims.OwnStationChangesOnlyAtReset := by
  intro c s t hc ht
  have straps : t.straps = s.straps :=
    exec_keeps (EffectsKeep.of_moves (straps_moves s.straps) (straps_stations _) (straps_links _)) c
      (fun straps h => absurd h (hc straps)) rfl ht
  simp only [ownStation, straps]

/-- Settles O3: what RESET leaves, and that no other command writes the straps. -/
theorem resetLeavesTheResetState : Obligations.ResetLeavesTheResetState :=
  ⟨resetLeavesTheResetState_claim, ownStationChangesOnlyAtReset⟩

/-! ### While RESET is held -/

/-- A frame that arrives while RESET is held is lost without a trace (R22). -/
theorem onArrival_held {s : State} (h : s.resetHeld = true) (p : Port) (n : Nat) (effect : State → State) :
    onArrival p n effect s = .next s := by
  simp [onArrival, receives, h]

/-- No internal step runs while RESET is held (log 7). -/
theorem onInside_held {s : State} (h : s.resetHeld = true) (effect : State → State) :
    onInside effect s = .next s := by
  simp [onInside, h]

/-- A command is the arrival of a frame, an internal step, a frame discarded, a link change or a reset. -/
theorem exec_kind (c : Instr) :
    (∃ p n effect, exec c = onArrival p n effect) ∨ (∃ effect, exec c = onInside effect) ∨
      (∃ p why, c = .frameDiscard p why) ∨ (∃ p, c = .linkDown p) ∨ (∃ p, c = .linkUp p) ∨
      (∃ straps, c = .reset straps) ∨ c = .resetAsserted := by
  cases c with
  | frameDiscard p why => exact .inr (.inr (.inl ⟨p, why, rfl⟩))
  | linkDown p => exact .inr (.inr (.inr (.inl ⟨p, rfl⟩)))
  | linkUp p => exact .inr (.inr (.inr (.inr (.inl ⟨p, rfl⟩))))
  | reset straps => exact .inr (.inr (.inr (.inr (.inr (.inl ⟨straps, rfl⟩)))))
  | resetAsserted => exact .inr (.inr (.inr (.inr (.inr (.inr rfl)))))
  | secondTick | clockFree | clockAdrift | silenceExpiry | holdExpiry | releaseTimeout | boardRefresh | transmitStart
  | transmitDone => exact .inr (.inl ⟨_, rfl⟩)
  | _ => exact .inl ⟨_, _, _, rfl⟩

/-- Settles O4: arrivals and internal steps do nothing while RESET is held. -/
theorem nothingMovesWhileResetIsHeld : Obligations.NothingMovesWhileResetIsHeld := by
  refine ⟨fun s => rfl, fun c s h hreset hdown hup => ?_, fun p s h => ⟨?_, ?_⟩⟩
  · rcases exec_kind c with ⟨p, n, effect, hc⟩ | ⟨effect, hc⟩ | ⟨p, why, rfl⟩ | ⟨p, rfl⟩ | ⟨p, rfl⟩ | ⟨straps, rfl⟩ | rfl
    · exact (congrFun hc s).trans (onArrival_held h p n effect)
    · exact (congrFun hc s).trans (onInside_held h effect)
    · rfl
    · exact absurd rfl (hdown p)
    · exact absurd rfl (hup p)
    · exact absurd rfl (hreset straps)
    · show Host.Outcome.next { s with resetHeld := true } = .next s
      rw [← h]
  · show execLinkDown p s = _
    simp [execLinkDown, h, noteLink]
  · show execLinkUp p s = _
    simp [execLinkUp, h, noteLink]

end Sys2Proof.Machine
end

section
/-! ## Field frames and supervision (R5 to R7, R13, R14, R16) -/

namespace Sys2Proof.Machine

open Sys2Proof.Claims

/-! ### Operations that write no station record -/

/-- No move writes the station table. -/
theorem stations_moves (l : List (Nat × Station)) : MovesKeep (fun s => s.stations = l) where
  transit _ _ _ h := by simpa using h
  origin _ _ _ h := by simpa using h
  counted _ _ h := h
  cleared _ h := h
  reported _ _ _ _ h := by simpa using h
  ride _ _ _ _ h := h
  everyRide _ _ _ h := h
  configured _ _ _ h := by simpa using h
  pass _ _ _ h := h
  passFreed _ _ h := h
  token _ _ h := by simpa using h
  hold _ _ h := h
  holdFreed _ _ h := h
  expired _ _ h := h
  board _ _ _ h := h
  boardFreed _ _ h := h
  classRate _ _ _ h := h
  symbolSet _ _ _ h := h
  clock _ _ h := h
  device _ _ h := h
  cursor _ _ h := h
  settings _ _ h := h
  mask _ _ h := h

/-- An owner's effect writes no station record, or the count baseline of one. -/
def WritesBaselineAtMost (effect : LineRx → Station → State → State) : Prop :=
  ∀ rx st s, (effect rx st s).stations = s.stations ∨
    ∃ v, (effect rx st s).stations = (setBaseline rx.source.toNat v s).stations

/-! ### The nine rows -/

/-- Each row of Table 1-6 that comes from field stations is observed or consumed, with its own body check and effect. -/
theorem exec_fieldRow {row : FieldRow} (hrow : row ∈ fieldRows) :
    ∃ bodyOk effect, (∀ b, bodyOk b = true ↔ row.fits b) ∧ WritesBaselineAtMost effect ∧
      ∀ rx s, exec (row.command rx) s = onArrival rx.port (linePayloadLength rx)
        (if row.observed then observe row.kind row.roles bodyOk (effect rx) rx
          else consume row.kind row.roles bodyOk (effect rx) rx) s := by
  simp only [fieldRows, List.mem_cons, List.not_mem_nil, or_false] at hrow
  rcases hrow with rfl | rfl | rfl | rfl | rfl | rfl | rfl | rfl | rfl
  · exact ⟨_, fun rx st t => takeCount (sourceOf rx) st (u16At (bodyOf rx) 0) t, count_fits,
      fun rx st s => .inr ⟨_, (stations_moves _).takeCount _ _ _ rfl⟩, fun _ _ => rfl⟩
  · exact ⟨_, dispatchEffect, dispatch_fits, fun rx st s => .inl ((stations_moves _).dispatchEffect rx st rfl),
      fun _ _ => rfl⟩
  · exact ⟨_, rideStateEffect, rideState_fits, fun rx st s => .inl ((stations_moves _).rideStateEffect rx st rfl),
      fun _ _ => rfl⟩
  · exact ⟨_, releasedEffect, released_fits, fun rx st s => .inl ((stations_moves _).releasedEffect rx st rfl),
      fun _ _ => rfl⟩
  · exact ⟨_, fun rx _ t => takePassReq rx t, passReq_fits,
      fun rx _ s => .inl ((stations_moves _).takePassReq rx rfl), fun _ _ => rfl⟩
  · exact ⟨_, fun rx _ t => acceptTake rx t, take_fits, fun rx _ s => .inl ((stations_moves _).acceptTake rx rfl),
      fun _ _ => rfl⟩
  · exact ⟨_, fun rx _ t => acceptDrop rx t, drop_fits, fun rx _ s => .inl ((stations_moves _).acceptDrop rx rfl),
      fun _ _ => rfl⟩
  · exact ⟨_, fun rx _ t => acceptCancel rx t, cancel_fits,
      fun rx _ s => .inl ((stations_moves _).acceptCancel rx rfl), fun _ _ => rfl⟩
  · exact ⟨_, redeemEffect, redeem_fits, fun rx st s => .inl ((stations_moves _).redeemEffect rx st rfl),
      fun _ _ => rfl⟩

/-! ### Frames that fail -/

theorem envelopeOk_iff (rx : LineRx) : envelopeOk rx = true ↔ EnvelopeFits rx :=
  decide_eq_true_iff

/-- The four steps of R6 name the counter of the first that fails. -/
theorem judge_fails {row : FieldRow} {rx : LineRx} {s : State} {failure : Counter} {bodyOk : List Byte → Bool}
    (hbody : ∀ b, bodyOk b = true ↔ row.fits b) (h : firstFailure row rx s failure) :
    judge row.roles bodyOk rx s = .error failure := by
  rcases h with ⟨henv, rfl⟩ | ⟨henv, hknown, rfl⟩ | ⟨henv, st, hknown, ⟨hrole, rfl⟩ | ⟨hrole, hfits, rfl⟩⟩
  · rw [judge, if_neg (by rwa [envelopeOk_iff])]
  · rw [judge, if_pos ((envelopeOk_iff rx).2 henv), sourceOf, hknown]
  · rw [judge_known _ _ rx s st henv hknown, if_neg hrole]
  · rw [judge_known _ _ rx s st henv hknown, if_pos hrole, if_neg (by rwa [hbody])]

theorem receives_of {p : Port} {n : Nat} {s : State} (h : Receives p s) (hlong : LongEnough n) :
    receives p n s = true := by
  simp [receives, h.released, h.linkUp, longEnough, Config.minFrame, Config.frameOverhead, hlong]

theorem onArrival_received {p : Port} {n : Nat} {s : State} (h : Receives p s) (hlong : LongEnough n)
    (effect : State → State) : onArrival p n effect s = .next (effect s) := by
  rw [onArrival, receives_of h hlong, if_pos rfl]

/-- Settles O9: the judgment's failure is counted, and a frame that passes through is not judged. -/
theorem failedFieldFramesAreCountedOnly : Obligations.FailedFieldFramesAreCountedOnly := by
  refine ⟨fun row hrow rx s failure hj hfail => ?_, fun row hrow rx s hr hlong hpass => ?_⟩
  · obtain ⟨bodyOk, effect, hbody, -, hexec⟩ := exec_fieldRow hrow
    obtain ⟨hreceives, hjudged⟩ := judged_receives rx s hj
    rw [Runs, hexec, onArrival, if_pos hreceives]
    cases row.observed with
    | true =>
      simp only [if_true, observe, hjudged, Bool.false_eq_true, if_false, judge_fails hbody hfail]
      rw [forwardFrom, hj.onField, otherPort]
    | false =>
      simp only [Bool.false_eq_true, if_false, consume, hjudged, judge_fails hbody hfail]
  · obtain ⟨bodyOk, effect, -, -, hexec⟩ := exec_fieldRow hrow
    have hthrough : passesThrough rx s = true := by
      rcases hpass with h | h <;> simp [passesThrough, h]
    rw [Runs, hexec]
    refine (onArrival_received hr hlong _).trans ?_
    cases row.observed with
    | true => simp only [if_true, observe, hthrough, forwardFrom]
    | false => simp only [Bool.false_eq_true, if_false, consume, hthrough, if_true, forwardFrom]

/-! ### Supervision -/

/-- Supervision writes the station's own record alone (R13). -/
theorem hear_stations (n : Nat) (st : Station) (s : State) :
    (hear n st s).stations = tblSet s.stations n (heardRecord st s) := by
  unfold hear
  dsimp only
  split
  · simp [heard]
  · rfl

/-- The record of a station after a count's baseline, or nothing, was written over its record. -/
theorem tblGet_baseline {t u : State} {n : Nat} {r : Station} (hr : tblGet u.stations n = some r)
    (h : t.stations = u.stations ∨ ∃ v, t.stations = (setBaseline n v u).stations) :
    (∃ r', tblGet t.stations n = some r' ∧ { r' with baseline := r.baseline } = r) ∧
      ∀ m, m ≠ n → tblGet t.stations m = tblGet u.stations m := by
  rcases h with h | ⟨v, h⟩
  · rw [h]
    exact ⟨⟨r, hr, rfl⟩, fun _ _ => rfl⟩
  · simp only [setBaseline, hr, putStation_stations] at h
    rw [h]
    exact ⟨⟨_, tblGet_tblSet_same .., rfl⟩, fun m hm => tblGet_tblSet_other _ _ _ _ hm⟩

/-- An accepted frame runs: supervision, then an effect that writes a baseline at most (R6, R7). -/
theorem accepted_runs {row : FieldRow} (hrow : row ∈ fieldRows) {rx : LineRx} {s : State} {st : Station}
    (h : Accepted row rx s st) : ∃ t, Runs (row.command rx) s t ∧
      (t.stations = (heardState rx st s).stations ∨
        ∃ v, t.stations = (setBaseline rx.source.toNat v (heardState rx st s)).stations) := by
  obtain ⟨bodyOk, effect, hbody, hwrites, hexec⟩ := exec_fieldRow hrow
  have hfits := (hbody _).2 h.body
  cases hobs : row.observed with
  | true =>
    refine ⟨placeTransit .park (lineFrame row.kind rx) (effect rx st (heardState rx st s)), ?_, ?_⟩
    · rw [Runs, hexec, hobs, if_pos rfl]
      exact observe_run _ _ _ _ rx s st h.judged h.envelope h.known h.role hfits
    · simpa using hwrites rx st (heardState rx st s)
  | false =>
    refine ⟨effect rx st (heardState rx st s), ?_, hwrites rx st _⟩
    rw [Runs, hexec, hobs, if_neg (by simp)]
    exact consume_run _ _ _ _ rx s st h.judged h.envelope h.known h.role hfits

/-- A recomputation for a record leaves the park port as it was: a RELEASE goes to the field port (R150). -/
theorem syncStation_park (st : Station) (s : State) : (syncStation st s).park = s.park := by
  rw [syncStation_is]
  split
  · unfold syncSilence syncGateSilence setGateSilence
    dsimp only
    (repeat' split) <;> simp
  · rfl

theorem boundRide_of {st : Station} {i : Nat} (hb : st.binding = some i) (hrole : rideBound st.role = true) :
    boundRide st = some i := by
  simp [boundRide, hb, hrole]

theorem boundRide_ne {st : Station} {j : Nat} (hb : st.binding ≠ some j) : boundRide st ≠ some j := by
  unfold boundRide
  split
  · exact hb
  · simp

/-- What a change of a station's record, its report and the recomputation for it make of the state (R13, R14, R16). -/
structure SupervisionShown (n : Nat) (st st' : Station) (kind : ReportKind) (s t : State) : Prop where
  stations : t.stations = tblSet s.stations n st'
  park : t.park = (report kind n (st.binding.getD 0xFFFF) s).park
  reports : t.reportQueue = (report kind n (st.binding.getD 0xFFFF) s).reportQueue
  handsOn : ∀ i, st.binding = some i → rideBound st.role = true → i < s.rides.length → SilenceHandedOn i t
  others : ∀ j, st.binding ≠ some j → rideAt j t = rideAt j s

theorem supervision_shown (n : Nat) (st st' : Station) (kind : ReportKind) (s : State) :
    SupervisionShown n st st' kind s (syncStation st (report kind n (bindingDetail st) (putStation n st' s))) where
  stations := by simp
  park := (syncStation_park _ _).trans (report_congr kind n _ (putStation n st' s) s rfl rfl rfl rfl rfl).1
  reports := by
    have hreports := (report_congr kind n (bindingDetail st) (putStation n st' s) s rfl rfl rfl rfl rfl).2
    simpa [bindingDetail, Config.noMinute] using hreports
  handsOn i hb hrole hi :=
    syncStation_handsOn st (by simpa using hi) (fun h => absurd (boundRide_of hb hrole) h)
  others j hb := by
    rw [rideAt_syncStation_other (boundRide_ne hb), rideAt_report]
    rfl

theorem hear_silent {n : Nat} {st : Station} {s : State} (h : st.supervision = .silent) :
    hear n st s = syncStation st
      (report .stationLive n (bindingDetail st) (putStation n (heardRecord st s) s)) :=
  if_pos h

/-- Settles O10: supervision is the same before every row's effect, and no effect writes a record but a baseline. -/
theorem acceptedFramesBringTheirStationLive : Obligations.AcceptedFramesBringTheirStationLive := by
  refine ⟨fun row hrow rx s st h => ?_, fun rx st s h => if_neg h, fun rx st s h => ?_⟩
  · obtain ⟨t, hruns, ht⟩ := accepted_runs hrow h
    obtain ⟨hown, hother⟩ := tblGet_baseline (by rw [hear_stations]; exact tblGet_tblSet_same ..) ht
    refine ⟨t, hruns, hown, fun m hm => ?_⟩
    rw [hother m hm, hear_stations, tblGet_tblSet_other _ _ _ _ hm]
  · obtain ⟨hstations, hpark, hreports, hhands, hothers⟩ :=
      supervision_shown rx.source.toNat st (heardRecord st s) .stationLive s
    rw [heardState, hear_silent h]
    exact ⟨hstations, hpark, hreports, hhands, hothers⟩

/-- A silence deadline that is reached. -/
theorem silenceDue_reached {n d : Nat} {s : State} {st : Station} (hdev : s.device ≠ .unconfigured)
    (hget : tblGet s.stations n = some st) (hlive : st.supervision = .live) (hd : st.deadline = some d)
    (hreached : d ≤ s.clock.elapsed) : silenceDue n s = goSilent n st s := by
  simp [silenceDue, hget, hdev, hlive, reached, hd, hreached]

/-- One not reached, or of a station that is not LIVE (log 2). -/
theorem silenceDue_idle {n : Nat} {s : State} {st : Station} (hget : tblGet s.stations n = some st)
    (h : st.supervision ≠ .live ∨ ∀ d, st.deadline = some d → s.clock.elapsed < d) : silenceDue n s = s := by
  simp only [silenceDue, hget]
  refine if_neg fun ⟨_, hlive, hreached⟩ => ?_
  obtain ⟨d, hd, hle⟩ := (Option.any_eq_true _ _).1 hreached
  rcases h with h | h
  · exact h hlive
  · exact absurd (h d hd) (Nat.not_lt.2 (by simpa using hle))

theorem goSilent_only (n : Nat) (st : Station) (s : State) : OnlyRidesPortsStations s (goSilent n st s) := by
  apply state_eq <;> simp

/-- Settles O11: a reached deadline is taken by `goSilent`, which recomputes one ride. -/
theorem silenceDeadlineMakesAStationSilent : Obligations.SilenceDeadlineMakesAStationSilent := by
  refine ⟨fun n s st d hr hdev hget hlive hd hreached => ?_, fun n s st hget h => ?_⟩
  · obtain ⟨hstations, hpark, hreports, hhands, hothers⟩ :=
      supervision_shown n st { st with supervision := .silent, deadline := none } .stationSilent s
    refine ⟨goSilent n st s, (onInside_runs hr _).trans ?_, hstations, hpark, hreports, hhands, hothers,
      goSilent_only n st s⟩
    rw [silenceDue_reached hdev hget hlive hd hreached]
  · show Host.Outcome.next (if s.resetHeld then s else silenceDue n s) = .next s
    rw [silenceDue_idle hget h, ite_self]

end Sys2Proof.Machine
end

section
/-! ## The station table loaded and emptied (R10 to R12) -/

namespace Sys2Proof.Machine

open Sys2Proof.Claims

/-! ### Ranges -/

theorem badStationNumber_iff (n : Nat) (s : State) : badStationNumber n s = true ↔ ¬ StationNumberOk n s := by
  simp only [badStationNumber, decide_eq_true_eq, StationNumberOk]
  omega

theorem bindingOutOfRange_iff (role : Role) (binding : Nat) :
    bindingOutOfRange role binding = true ↔ ¬ BindingFits role binding := by
  cases role <;> simp [bindingOutOfRange, BindingFits]

theorem clampWindow_eq (role : Role) (w : Nat) : clampWindow role w = windowStored role w := by
  unfold clampWindow windowStored clampTo
  by_cases hb : role = .board
  · simp [hb]
  · by_cases hw : w = 0
    · simp [hw]
    · simp only [hb, hw, if_false, or_self]
      omega

theorem loadedStation_eq (role : Role) (binding w : Nat) :
    loadedStation role binding w = freshStation role binding w := by
  simp [loadedStation, loadBinding, clampWindow_eq]

/-! ### LOAD_STATION -/

theorem runLoadStation_stores {params : List Byte} {s : State} {role : Role} (hlen : 6 ≤ params.length)
    (hrole : roleOfCode (u8At params 2) = some role) (hn : StationNumberOk (u16At params 0) s)
    (hb : BindingFits role (u8At params 3))
    (hroom : (tblGet s.stations (u16At params 0)).isSome ∨ s.stations.length < 512) :
    runLoadStation params s =
      (storeStation (u16At params 0) (freshStation role (u8At params 3) (u16At params 4)) s,
       doneOrClamped (if windowStored role (u16At params 4) = u16At params 4 then [] else [4]) .empty) := by
  have hnumber : badStationNumber (u16At params 0) s = false := by
    rw [Bool.eq_false_iff, Ne, badStationNumber_iff, Classical.not_not]
    exact hn
  have hbinding : bindingOutOfRange role (u8At params 3) = false := by
    rw [Bool.eq_false_iff, Ne, bindingOutOfRange_iff, Classical.not_not]
    exact hb
  have hplace : ¬ ((tblGet s.stations (u16At params 0)).isNone ∧ Config.stationPlaces ≤ s.stations.length) := by
    rintro ⟨hnone, hfull⟩
    rcases hroom with h | h
    · rw [Option.isNone_iff_eq_none] at hnone
      simp [hnone] at h
    · exact absurd h (Nat.not_lt.2 hfull)
  have hadjusted : adjustedAt 4 (u16At params 4) (windowStored role (u16At params 4)) =
      if windowStored role (u16At params 4) = u16At params 4 then [] else [4] := by
    simp only [adjustedAt, eq_comm]
  simp only [runLoadStation, withBytes, if_neg (Nat.not_lt.2 hlen), hnumber, Bool.false_eq_true, if_false, hrole,
    hbinding, hplace, clampWindow_eq, loadedStation_eq, carriedOut, hadjusted]

theorem runLoadStation_range {params : List Byte} {s : State} (hlen : 6 ≤ params.length)
    (h : roleOfCode (u8At params 2) = none ∨ ¬ StationNumberOk (u16At params 0) s ∨
      ∃ role, roleOfCode (u8At params 2) = some role ∧ ¬ BindingFits role (u8At params 3)) :
    runLoadStation params s = (s, refused .range) := by
  simp only [runLoadStation, withBytes, if_neg (Nat.not_lt.2 hlen)]
  split
  · rfl
  · rename_i hn
    rw [badStationNumber_iff, Classical.not_not] at hn
    split
    · rfl
    · rename_i role hrole
      rw [if_pos]
      · rfl
      · rw [bindingOutOfRange_iff]
        rcases h with h | h | ⟨role', hrole', hb⟩
        · simp [hrole] at h
        · exact absurd hn h
        · obtain rfl : role' = role := by simpa [hrole] using hrole'.symm
          exact hb

theorem runLoadStation_full {params : List Byte} {s : State} {role : Role} (hlen : 6 ≤ params.length)
    (hrole : roleOfCode (u8At params 2) = some role) (hn : StationNumberOk (u16At params 0) s)
    (hb : BindingFits role (u8At params 3)) (hnone : tblGet s.stations (u16At params 0) = none)
    (hfull : 512 ≤ s.stations.length) : runLoadStation params s = (s, refused .full) := by
  have hnumber : badStationNumber (u16At params 0) s = false := by
    rw [Bool.eq_false_iff, Ne, badStationNumber_iff, Classical.not_not]
    exact hn
  have hbinding : bindingOutOfRange role (u8At params 3) = false := by
    rw [Bool.eq_false_iff, Ne, bindingOutOfRange_iff, Classical.not_not]
    exact hb
  have hplace : Config.stationPlaces ≤ s.stations.length := hfull
  simp [runLoadStation, withBytes, Nat.not_lt.2 hlen, hnumber, hrole, hbinding, hnone, hplace, refusedFor]

theorem runRemoveStation_removes {params : List Byte} {s : State} (hlen : 2 ≤ params.length)
    (h : (tblGet s.stations (u16At params 0)).isSome) :
    runRemoveStation params s = (removeStation (u16At params 0) s, done .empty) := by
  simp [runRemoveStation, withBytes, Nat.not_lt.2 hlen, h, doneWith]

theorem runRemoveStation_absent {params : List Byte} {s : State} (hlen : 2 ≤ params.length)
    (h : tblGet s.stations (u16At params 0) = none) : runRemoveStation params s = (s, refused .notFound) := by
  simp [runRemoveStation, withBytes, Nat.not_lt.2 hlen, h, refusedFor]

/-! ### What a record that leaves the table makes of the rides -/

theorem leaveTable_silent {old : Station} (h : old.supervision = .silent) (s : State) :
    leaveTable (some old) s = syncStation old s := if_pos h

/-- A record that is not SILENT leaves without a recomputation. -/
theorem leaveTable_quiet {o : Option Station} (h : ∀ old, o = some old → old.supervision ≠ .silent) (s : State) :
    leaveTable o s = s := by
  cases o with
  | none => rfl
  | some old => exact if_neg (h old rfl)

theorem storeStation_only (n : Nat) (st : Station) (s : State) : OnlyRidesPortsStations s (storeStation n st s) := by
  apply state_eq <;> simp

theorem removeStation_only (n : Nat) (s : State) : OnlyRidesPortsStations s (removeStation n s) := by
  apply state_eq <;> simp [removeStation]

/-- A stored record that is not SILENT counts in no silence, so that those of the recomputed ride stay handed on. -/
theorem storeStation_handsOn {n i : Nat} {st old : Station} {s : State} (hst : st.supervision ≠ .silent)
    (hold : tblGet s.stations n = some old) (hsilent : old.supervision = .silent) (hb : boundRide old = some i)
    (hi : i < s.rides.length) : SilenceHandedOn i (storeStation n st s) := by
  have left := syncStation_handsOn old (s := putStation n { st with binding := none } s) hi
    (fun h => absurd hb h)
  have hrides : rideAt i (storeStation n st s) =
      rideAt i (syncStation old (putStation n { st with binding := none } s)) := by
    rw [storeStation, hold, leaveTable_silent hsilent]
    rfl
  rw [handedOn_iff] at left ⊢
  rw [hrides, left]
  refine (silencesOf_congr fun roles _ => ?_).symm
  rw [storeStation_silent roles i n st hst s]
  simp

theorem storeStation_quiet {n : Nat} {st : Station} {s : State}
    (h : ∀ old, tblGet s.stations n = some old → old.supervision ≠ .silent) :
    storeStation n st s = { s with stations := (storeStation n st s).stations } := by
  rw [storeStation, leaveTable_quiet h]
  rfl

/-- With counter and control silence in line, a recomputation hands gate silence on alone. -/
theorem syncSilence_gate {i : Nat} {s : State} (hstale : (rideAt i s).est.stale = counterSilence i s)
    (hcontrol : (rideAt i s).noControl = controlSilence i s) : syncSilence i s = syncGateSilence i s := by
  rw [syncSilence, syncCounterSilence, if_pos hstale, syncControlSilence, if_pos hcontrol]

/-- A gate silence that ends clears its flag and tests the release condition (R156). -/
theorem syncGateSilence_ends {i : Nat} {s : State} (hflag : (rideAt i s).lane.gateSilence = true)
    (hends : gateSilence i s = false) :
    syncGateSilence i s = testRelease i
      (setRide i { rideAt i s with lane := { (rideAt i s).lane with gateSilence := false } } s) := by
  rw [syncGateSilence, if_neg (by simp [hflag, hends]), hends]
  rfl

/-- A gate's record replaced by one that is not SILENT leaves counter and control silence as they were. -/
theorem gate_replaced {n i : Nat} {st old : Station} {s : State} (hold : tblGet s.stations n = some old)
    (hrole : old.role = .mergeGate) (hst : st.supervision ≠ .silent) :
    counterSilence i (putStation n st s) = counterSilence i s ∧
      controlSilence i (putStation n st s) = controlSilence i s := by
  constructor <;>
    exact any_tblSet _ _ _ _ (by simp [hold, silentFor, hst, hrole])

/-- A SILENT gate replaced, where that ends its ride's gate silence: the release test is made with the new record in the
table but not its binding (log 26). -/
theorem storeStation_gate {n i : Nat} {st old : Station} {s v : State} (hst : st.supervision ≠ .silent)
    (hold : tblGet s.stations n = some old) (hsilent : old.supervision = .silent) (hrole : old.role = .mergeGate)
    (hb : old.binding = some i) (hflag : (rideAt i s).lane.gateSilence = true)
    (hstale : (rideAt i s).est.stale = counterSilence i s) (hcontrol : (rideAt i s).noControl = controlSilence i s)
    (hv : v = putStation n { st with binding := none } s) (hends : gateSilence i v = false) :
    storeStation n st s =
      { testRelease i (setRide i { rideAt i s with lane := { (rideAt i s).lane with gateSilence := false } } v) with
        stations := (storeStation n st s).stations } := by
  obtain ⟨hcounter', hcontrol'⟩ := gate_replaced (i := i) (st := { st with binding := none }) hold hrole hst
  have hsync : leaveTable (some old) v = testRelease i
      (setRide i { rideAt i s with lane := { (rideAt i s).lane with gateSilence := false } } v) := by
    subst hv
    rw [leaveTable_silent hsilent, syncStation_is, boundRide_of hb (by rw [hrole]; rfl)]
    exact (syncSilence_gate (s := putStation n { st with binding := none } s) (hstale.trans hcounter'.symm)
      (hcontrol.trans hcontrol'.symm)).trans (syncGateSilence_ends hflag hends)
  rw [← hsync, storeStation, hold, hv]
  rfl

theorem removeStation_stations (n : Nat) (s : State) : (removeStation n s).stations = tblErase s.stations n := by
  simp [removeStation]

theorem removeStation_handsOn {n i : Nat} {old : Station} {s : State} (hold : tblGet s.stations n = some old)
    (hsilent : old.supervision = .silent) (hb : boundRide old = some i) (hi : i < s.rides.length) :
    SilenceHandedOn i (removeStation n s) := by
  rw [removeStation, hold, leaveTable_silent hsilent]
  exact syncStation_handsOn old hi (fun h => absurd hb h)

theorem removeStation_quiet {n : Nat} {s : State}
    (h : ∀ old, tblGet s.stations n = some old → old.supervision ≠ .silent) :
    removeStation n s = { s with stations := (removeStation n s).stations } := by
  rw [removeStation, leaveTable_quiet h]

/-- Settles O12: the table's two commands, and what a record that leaves the table hands on. -/
theorem stationTableIsLoadedAndEmptied : Obligations.StationTableIsLoadedAndEmptied := by
  refine ⟨fun rx s role hc hlen hrole hn hb hroom => ?_, fun rx s hc hlen h => ?_,
    fun rx s role hc hlen hrole hn hb hnone hfull => ?_, fun rx s hc hlen h => ?_, fun rx s hc hlen h => ?_⟩
  · have hrun := mgmt_run 0x04 runLoadStation rx s hc
    rw [runLoadStation_stores hlen hrole hn hb hroom] at hrun
    refine ⟨_, _, hrun, rfl, (storeStation_keeps _ _ _).2.2.1, ?_, storeStation_quiet, ?_, storeStation_only _ _ _⟩
    · intro old i hold hsilent hbinding hbound hi
      exact storeStation_handsOn (by simp) hold hsilent (boundRide_of hbinding hbound) hi
    · rintro old i _ v hold hsilent hgate hbinding hflag hstale hcontrol rfl hv hends
      exact storeStation_gate (by simp) hold hsilent hgate hbinding hflag hstale hcontrol hv hends
  · have hrun := mgmt_run 0x04 runLoadStation rx s hc
    rwa [runLoadStation_range hlen h] at hrun
  · have hrun := mgmt_run 0x04 runLoadStation rx s hc
    rwa [runLoadStation_full hlen hrole hn hb hnone hfull] at hrun
  · have hrun := mgmt_run 0x05 runRemoveStation rx s hc
    rw [runRemoveStation_removes hlen h] at hrun
    refine ⟨_, _, hrun, rfl, removeStation_stations _ _, ?_, removeStation_quiet, removeStation_only _ _⟩
    intro old i hold hsilent hbinding hbound hi
    exact removeStation_handsOn hold hsilent (boundRide_of hbinding hbound) hi
  · have hrun := mgmt_run 0x05 runRemoveStation rx s hc
    rwa [runRemoveStation_absent hlen h] at hrun

end Sys2Proof.Machine
end

section
/-! ## Line frames read, forwarded and written (R1, R4, R5, R8, Tables 1-1 to 1-6) -/

namespace Sys2Proof.Machine

open Sys2Proof.Claims

/-! ### Bytes of a field -/

theorem joinHalf_halfBytes (h : Half) : joinHalf (h.extractLsb' 8 8) (h.extractLsb' 0 8) = h := by
  apply BitVec.eq_of_getLsbD_eq
  intro i hi
  simp only [joinHalf, BitVec.getLsbD_append, BitVec.getLsbD_extractLsb']
  by_cases hlow : i < 8
  · simp [hlow]
  · have : i - 8 < 8 := by omega
    have hback : 8 + (i - 8) = i := by omega
    simp [hlow, this, hback]

theorem halfBytes_joinHalf (high low : Byte) : halfBytes (joinHalf high low) = [high, low] := by
  have hhigh : (joinHalf high low).extractLsb' 8 8 = high := by
    apply BitVec.eq_of_getLsbD_eq
    intro i hi
    simp only [joinHalf, BitVec.getLsbD_append, BitVec.getLsbD_extractLsb']
    simp [hi]
  have hlow : (joinHalf high low).extractLsb' 0 8 = low := by
    apply BitVec.eq_of_getLsbD_eq
    intro i hi
    simp only [joinHalf, BitVec.getLsbD_append, BitVec.getLsbD_extractLsb']
    simp [hi]
  rw [halfBytes, hhigh, hlow]

/-! ### Reading and writing a line frame -/

/-- The classifier reads of a line frame the kind and the fields it was made of (Table 1-1). -/
theorem readLine_lineFrame (kind : Byte) (rx : LineRx) : readLine rx.port (lineFrame kind rx) = some (kind, rx) := by
  simp [readLine, lineFrame, halfBytes, joinHalf_halfBytes]

/-- A frame that is read is the line frame of what was read. -/
theorem lineFrame_of_readLine {port : Port} {f : Frame} {kind : Byte} {rx : LineRx}
    (h : readLine port f = some (kind, rx)) : rx.port = port ∧ lineFrame kind rx = f := by
  unfold readLine at h
  split at h
  · rename_i fmt k s1 s0 d1 d0 n1 n0 rest hpayload
    split at h
    · rename_i hours
      simp only [Option.some.injEq, Prod.mk.injEq] at h
      obtain ⟨rfl, rfl⟩ := h
      refine ⟨rfl, ?_⟩
      simp only [lineFrame, halfBytes_joinHalf]
      rw [← hours.1, ← hours.2]
      cases f
      simp_all
    · simp at h
  · simp at h

theorem mgmtLine_of_readMgmt {rx : LineRx} {code : Byte} {m : MgmtRx} (h : readMgmt rx = some (code, m)) :
    mgmtLine code m = rx := by
  unfold readMgmt at h
  split at h
  · rename_i c tail hrest
    simp only [Option.some.injEq, Prod.mk.injEq] at h
    obtain ⟨rfl, rfl⟩ := h
    cases rx
    simp_all [mgmtLine]
  · simp at h

theorem lineFrame_length (kind : Byte) (rx : LineRx) : (lineFrame kind rx).payload.length = linePayloadLength rx := by
  simp [lineFrame, halfBytes, linePayloadLength]
  omega

/-- A line frame is judged by its kind (Table 1-6). -/
theorem arriveFrame_lineFrame (kind : Byte) (rx : LineRx) (s : State) :
    arriveFrame rx.port (lineFrame kind rx) s = arriveLine kind rx s := by
  have hours : (lineFrame kind rx).ourFormat = true := by simp [Frame.ourFormat, lineFrame]
  rw [arriveFrame, if_neg (by simp [lineFrame]), if_neg (by simp [hours]), readLine_lineFrame]

/-- FORWARD with a line frame is the arrival of that frame (log 4). -/
theorem exec_forward_lineFrame (kind : Byte) (rx : LineRx) (s : State) :
    exec (.forward rx.port (lineFrame kind rx)) s = onArrival rx.port (linePayloadLength rx) (arriveLine kind rx) s := by
  show onArrival _ _ _ _ = _
  rw [lineFrame_length, onArrival, arriveFrame_lineFrame, onArrival]

theorem exec_fieldRow_line {row : FieldRow} (hrow : row ∈ fieldRows) (rx : LineRx) (s : State) :
    exec (row.command rx) s = onArrival rx.port (linePayloadLength rx) (arriveLine row.kind rx) s := by
  simp only [fieldRows, List.mem_cons, List.not_mem_nil, or_false] at hrow
  rcases hrow with rfl | rfl | rfl | rfl | rfl | rfl | rfl | rfl | rfl <;> rfl

/-- A line frame of kind 40H that holds a command code is a MGMT frame of that code (R8). -/
theorem exec_forward_mgmtLine (code : Byte) (rx : MgmtRx) (s : State) :
    exec (.forward rx.port (lineFrame 0x40 (mgmtLine code rx))) s = mgmtStep code (commandFor code) rx s :=
  exec_forward_lineFrame 0x40 (mgmtLine code rx) s

theorem theClassifierReadsKindAndCode : Claims.TheClassifierReadsKindAndCode := by
  refine ⟨readLine_lineFrame, fun row hrow rx s => ?_, fun rx s => ⟨exec_forward_lineFrame 0x30 rx s,
    exec_forward_lineFrame 0x31 rx s⟩, ?_⟩
  · rw [exec_forward_lineFrame, exec_fieldRow_line hrow]
  · simp only [List.forall_mem_cons, List.not_mem_nil, false_implies, implies_true, and_true]
    refine ⟨?_, ?_, ?_, ?_, ?_, ?_, ?_, ?_, ?_, ?_, ?_, ?_, ?_, ?_, ?_, ?_, ?_, ?_, ?_, ?_, ?_, ?_, ?_, ?_, ?_⟩ <;>
      exact exec_forward_mgmtLine _

/-! ### Frames that reach no block -/

/-- A kind of no row of Table 1-6 is forwarded. -/
theorem arriveLine_other {kind : Byte} (h : kind.toNat ∉ [0x01, 0x02, 0x03, 0x04, 0x10, 0x11, 0x12, 0x13, 0x14,
    0x30, 0x31, 0x40]) (rx : LineRx) (s : State) : arriveLine kind rx s = forwardFrom rx.port (lineFrame kind rx) s := by
  unfold arriveLine
  split <;> simp_all

theorem arriveFrame_other {port : Port} {f : Frame} {kind : Byte} {rest : List Byte} (htype : f.ethType = 0x9C5E)
    (hpayload : f.payload = 0x03 :: kind :: rest)
    (hkind : kind.toNat ∉ [0x01, 0x02, 0x03, 0x04, 0x10, 0x11, 0x12, 0x13, 0x14, 0x30, 0x31, 0x40]) (s : State) :
    arriveFrame port f s = placeTransit (otherPort port) f s := by
  have hours : f.ourFormat = true := by simp [Frame.ourFormat, hpayload, Config.lineFormat]
  rw [arriveFrame, if_neg (by simp [htype, Config.lineType]), if_neg (by simp [hours])]
  split
  · rename_i k rx hread
    obtain ⟨rfl, hf⟩ := lineFrame_of_readLine hread
    have hk : k = kind := by
      have hframe := congrArg Frame.payload hf
      rw [hpayload] at hframe
      simp only [lineFrame, List.cons.injEq] at hframe
      exact hframe.2.1
    rw [arriveLine_other (hk ▸ hkind), hf, forwardFrom]
  · rfl

/-- A MGMT line for another station goes on, whether it holds a command or not (R8). -/
theorem arriveMgmtLine_elsewhere {rx : LineRx} {s : State} (h : rx.dest.toNat ≠ ownStation s) :
    arriveMgmtLine rx s = forwardFrom rx.port (lineFrame 0x40 rx) s := by
  unfold arriveMgmtLine
  split
  · rename_i code m hread
    have hm := mgmtLine_of_readMgmt hread
    have hdest : destOf (mgmtLine code m) ≠ ownStation s := by rw [hm]; exact h
    rw [arriveMgmt, if_pos hdest, hm, ← hm]
    rfl
  · exact if_pos h

theorem framesThatReachNoBlock_claim : Claims.FramesThatReachNoBlock := by
  refine ⟨fun port why s => rfl, fun port f s hr hlong htype => ?_, fun port f s hr hlong htype hformat => ?_,
    fun port f s rest hr hlong htype ⟨kind, hpayload, hkind⟩ => ?_, fun rx s hr hport hlong hdest => ?_,
    fun rx s hr hlong hdest => ?_⟩
  · show execOtherTraffic port f s = _
    rw [execOtherTraffic, onArrival_received hr hlong, if_neg (show ¬ f.ethType = Config.lineType from htype), forwardFrom]
  · have hours : f.ourFormat = false := by simpa [Frame.ourFormat, Config.lineFormat] using hformat
    show execForeignFrame port f s = _
    rw [execForeignFrame, onArrival_received hr hlong, if_pos (show f.ethType = Config.lineType ∧ f.ourFormat = false from ⟨htype, hours⟩), forwardFrom]
  · refine (onArrival_received hr hlong _).trans ?_
    rw [arriveFrame_other htype hpayload hkind]
  · rw [← hport] at hr
    show execWrongPortMgmt rx s = _
    rw [execWrongPortMgmt, linePayloadLength, onArrival_received hr hlong, if_pos (show rx.port = .field ∧ destOf rx = ownStation s from ⟨hport, hdest⟩)]
  · rw [Runs, exec_forward_lineFrame]
    refine (onArrival_received hr hlong _).trans ?_
    show Host.Outcome.next (arriveMgmtLine rx s) = _
    rw [arriveMgmtLine_elsewhere hdest, forwardFrom]

/-- A TIME frame that is malformed (R3, R9). -/
theorem timeBody_malformed {rx : LineRx}
    (h : ¬ EnvelopeFits rx ∨ (bodyOf rx).length ≠ 4 ∨ 129599 < u32At (bodyOf rx) 0) :
    (envelopeOk rx && timeBodyOk (bodyOf rx)) = false := by
  rw [Bool.eq_false_iff, Ne, Bool.and_eq_true, envelopeOk_iff]
  rintro ⟨henv, hbody⟩
  simp only [timeBodyOk, Bool.and_eq_true, beq_iff_eq, Config.maxDaySecond] at hbody
  rcases h with h | h | h
  · exact h henv
  · exact h hbody.1
  · exact absurd (of_decide_eq_true hbody.2) (Nat.not_le.2 h)

theorem parkFramesThatPassThrough : Claims.ParkFramesThatPassThrough := by
  refine ⟨fun rx s hr hlong hpass => ?_, fun rx s ⟨hr, hport, hlong, hdev⟩ hbad => ?_⟩
  · have hthrough : parkPassesThrough rx s = true := by
      rcases hpass with h | h <;> simp [parkPassesThrough, h]
    constructor
    · refine (onArrival_received hr hlong _).trans ?_
      rw [arriveBoard, if_pos hthrough, forwardFrom]
    · refine (onArrival_received hr hlong _).trans ?_
      rw [arriveTime, if_pos hthrough, forwardFrom]
  · have hthrough : ¬ parkPassesThrough rx s = true := by simp [parkPassesThrough, hport, hdev]
    rw [← hport] at hr
    refine (onArrival_received hr hlong _).trans ?_
    rw [arriveTime, if_neg hthrough, timeBody_malformed hbad, if_neg (by simp), forwardFrom, hport]
    rfl

/-- Settles O52: each such frame is read, and its kind, format or destination decides. -/
theorem framesThatReachNoBlock : Obligations.FramesThatReachNoBlock :=
  ⟨framesThatReachNoBlock_claim, parkFramesThatPassThrough⟩

/-! ### Originated frames on the wire -/

/-- The arrival another station would read of an originated frame (Table 1-1). -/
def originLine (f : OriginFrame) : LineRx :=
  { port := .park, ethDst := f.ethDst, ethSrc := ownMac f.source, source := BitVec.ofNat 16 f.source,
    dest := BitVec.ofNat 16 f.dest, bodyLen := BitVec.ofNat 16 (bodyBytes f.body).length,
    rest := bodyBytes f.body ++
      (List.range (Config.minFrame - Config.frameOverhead - (originPayload f).length)).map Config.paddingByte }

theorem wireFrame_is (f : OriginFrame) : wireFrame f = lineFrame (byteOf (bodyKind f.body)) (originLine f) := by
  simp [wireFrame, lineFrame, originLine, padded, originPayload, numberBytes]

theorem originPayload_length (f : OriginFrame) : (originPayload f).length = 8 + (bodyBytes f.body).length := by
  simp [originPayload, numberBytes, halfBytes]
  omega

theorem originatedFramesOnTheWire : Claims.OriginatedFramesOnTheWire := by
  intro f hsource hdest hlen
  refine ⟨rfl, ?_, rfl, originLine f, _, ?_, ?_, ?_, ?_, rfl, ?_⟩
  · show (BitVec.ofNat 48 (0x025116000000 + f.source)).toNat = _
    rw [BitVec.toNat_ofNat, Nat.mod_eq_of_lt (by omega)]
  · rw [wireFrame_is]
    exact readLine_lineFrame _ (originLine f)
  · exact Nat.mod_eq_of_lt hsource
  · exact Nat.mod_eq_of_lt hdest
  · exact Nat.mod_eq_of_lt hlen
  · simp only [wireFrame, padded, List.length_append, List.length_map, List.length_range, originPayload_length,
      Config.minFrame, Config.frameOverhead]
    omega

theorem numberBytes_eq (n : Nat) : numberBytes n = two n := by
  have hhigh : (BitVec.ofNat 16 n).extractLsb' 8 8 = BitVec.ofNat 8 (n / 256) := by
    apply BitVec.eq_of_toNat_eq
    simp only [BitVec.extractLsb'_toNat, BitVec.toNat_ofNat, Nat.shiftRight_eq_div_pow]
    omega
  have hlow : (BitVec.ofNat 16 n).extractLsb' 0 8 = BitVec.ofNat 8 n := by
    apply BitVec.eq_of_toNat_eq
    simp only [BitVec.extractLsb'_toNat, BitVec.toNat_ofNat, Nat.shiftRight_eq_div_pow]
    omega
  rw [numberBytes, halfBytes, hhigh, hlow]

theorem parkSecondBytes_eq (t : Option Nat) : parkSecondBytes t = parkSecond t := by
  cases t with
  | none => rfl
  | some n => simp [parkSecondBytes, wordBytes, numberBytes_eq]

/-- The data bytes of an answer: none where the data is empty (R175), the counters' two bytes each first (R195). -/
theorem replyBytes_empty {code : Nat} {result : MgmtResult} (adjusted : List Nat) (h : result ≠ .clamped) :
    replyBytes code { result := result, adjusted := adjusted, data := .empty } = [] := by
  cases result <;> simp_all [replyBytes, adjustedValues, dataValues, valueBytes]

theorem replyBytes_counters (code : Nat) (result : MgmtResult) (adjusted : List Nat) (c : Counters) (free : Nat) :
    (counterValues c).flatMap two <+:
      replyBytes code { result := result, adjusted := adjusted, data := .counters c free } := by
  have hnumbers : (counterValues c).flatMap two = ((counterValues c).map numberBytes).flatten := by
    rw [List.flatMap_def, funext numberBytes_eq]
  rw [hnumbers]
  exact ⟨_, rfl⟩

theorem originatedBodies : Claims.OriginatedBodies := by
  refine ⟨?_, ?_, ?_, ?_, ?_, ?_, ?_, ?_, ?_⟩
  · intro tag hold ride start length seconds
    exact ⟨rfl, by simp [bodyBytes, numberBytes_eq, byteOf]⟩
  · intro tag pass ride start length party
    exact ⟨rfl, by simp [bodyBytes, numberBytes_eq, byteOf]⟩
  · intro e he tag kind extra
    have hcode : refuseCode e.1 = e.2 := by revert e; decide
    exact ⟨rfl, by simp [bodyBytes, numberBytes_eq, byteOf, hcode]⟩
  · intro tag admitted remaining
    exact ⟨rfl, by simp [bodyBytes, numberBytes_eq, byteOf]⟩
  · intro batch
    exact ⟨rfl, rfl⟩
  · intro slots
    have hslots : slotBytes = fun b => [b.status] ++ two b.wait ++ [b.pass] ++ two b.next :=
      funext fun b => by rw [slotBytes, numberBytes_eq, numberBytes_eq]
    exact ⟨rfl, by rw [bodyBytes, hslots]; rfl⟩
  · intro e he code tag adjusted data
    have hcodes : resultCode e.1 = e.2.1 ∧ reasonByte e.1 = e.2.2 := by revert e; decide
    refine ⟨replyBytes code { result := e.1, adjusted := adjusted, data := data }, ⟨rfl, ?_⟩, ?_, ?_⟩
    · simp [bodyBytes, numberBytes_eq, byteOf, hcodes]
    · rintro rfl hclamped
      exact replyBytes_empty adjusted hclamped
    · rintro c free rfl
      exact replyBytes_counters code e.1 adjusted c free
  · intro e he subject detail t
    have hcodes : reportCode e.1 = e.2.1 ∧ reportLevel e.1 = e.2.2 := by revert e; decide
    exact ⟨rfl, by simp [bodyBytes, numberBytes_eq, byteOf, hcodes, parkSecondBytes_eq]⟩
  · intro e he pass ride count start t token
    have hcode : eventCode e.1 = e.2 := by revert e; decide
    exact ⟨rfl, by simp [bodyBytes, numberBytes_eq, byteOf, hcode, parkSecondBytes_eq]⟩

/-- Settles O53: frames are read back from their bytes, and every body is written field by field. -/
theorem framesAreReadAndWritten : Obligations.FramesAreReadAndWritten :=
  ⟨theClassifierReadsKindAndCode, originatedFramesOnTheWire, originatedBodies⟩

end Sys2Proof.Machine
end

section
/-! ## What becomes of a MGMT frame before its command's rule (R8, R174) -/

namespace Sys2Proof.Machine

open Sys2Proof.Claims

/-! ### Frames that are not commands -/

/-- A MGMT frame of any code that is for another station, on the field port, or malformed (R8). -/
theorem mgmtStep_setAside (code : Byte) (run : Command) {rx : MgmtRx} {s : State} (hr : Receives rx.port s)
    (hlong : LongEnough (9 + rx.tail.length)) :
    (rx.dest.toNat ≠ ownStation s → mgmtStep code run rx s =
      .next (placeTransit (otherPort rx.port) (lineFrame 0x40 (mgmtLine code rx)) s)) ∧
    (rx.dest.toNat = ownStation s → rx.port = .field → mgmtStep code run rx s = .next (bump .wrongPortMgmt s)) ∧
    (rx.dest.toNat = ownStation s → rx.port = .park →
      ¬ (rx.bodyLen.toNat ≤ 1188 ∧ rx.bodyLen.toNat ≤ 1 + rx.tail.length) ∨ rx.bodyLen.toNat < 3 →
      mgmtStep code run rx s = .next (bump .malformed s)) := by
  have hlen : LongEnough (linePayloadLength (mgmtLine code rx)) := by
    simp only [LongEnough, linePayloadLength, mgmtLine, List.length_cons] at hlong ⊢
    omega
  rw [mgmtStep, onArrival_received hr hlen]
  refine ⟨fun hdest => ?_, fun hdest hport => ?_, fun hdest hport hbad => ?_⟩
  · rw [arriveMgmt, if_pos (show destOf (mgmtLine code rx) ≠ ownStation s from hdest), forwardFrom]
  · rw [arriveMgmt, if_neg (Classical.not_not.2 (show destOf (mgmtLine code rx) = ownStation s from hdest)), hport]
  · have hmalformed : ¬ (envelopeOk (mgmtLine code rx) && decide (3 ≤ rx.bodyLen.toNat)) = true := by
      rw [Bool.and_eq_true, envelopeOk_iff, decide_eq_true_eq]
      rintro ⟨⟨hmax, hfits⟩, hbody⟩
      simp only [mgmtLine, List.length_cons] at hmax hfits
      rcases hbad with hbad | hbad
      · exact hbad ⟨hmax, by omega⟩
      · omega
    rw [arriveMgmt, if_neg (Classical.not_not.2 (show destOf (mgmtLine code rx) = ownStation s from hdest)), hport]
    simp only [if_neg hmalformed]

/-- The same, of a command that is a MGMT row. -/
theorem mgmtSetAside_of {code : Nat} {command : MgmtRx → Instr} {run : Command}
    (h : ∀ rx s, exec (command rx) s = mgmtStep (BitVec.ofNat 8 code) run rx s) : mgmtSetAside code command := by
  intro rx s hr hlong
  simp only [Runs, h]
  exact mgmtStep_setAside _ run hr hlong

/-! ### The rows of Table 1-5 -/

theorem withBytes_zero (run : Command) : withBytes 0 run = run := by
  funext params s
  simp [withBytes]

/-- Each row runs its command on enough parameter bytes, and refuses fewer RANGE (R174). -/
theorem exec_commandRow {e : Nat × (MgmtRx → Instr) × Nat} (he : e ∈ commandRows) :
    e.1 < 256 ∧ ∃ run, ∀ rx s, exec (e.2.1 rx) s = mgmtStep (BitVec.ofNat 8 e.1) (withBytes e.2.2 run) rx s := by
  simp only [commandRows, List.mem_cons, List.not_mem_nil, or_false] at he
  rcases he with rfl | rfl | rfl | rfl | rfl | rfl | rfl | rfl | rfl | rfl | rfl | rfl | rfl | rfl | rfl | rfl | rfl |
    rfl | rfl | rfl | rfl | rfl | rfl | rfl | rfl <;> refine ⟨by decide, ?_⟩
  case inl | inr.inr.inr.inr.inr.inr.inr.inr.inr.inl | inr.inr.inr.inr.inr.inr.inr.inr.inr.inr.inl
      | inr.inr.inr.inr.inr.inr.inr.inr.inr.inr.inr.inl | inr.inr.inr.inr.inr.inr.inr.inr.inr.inr.inr.inr.inl =>
    exact ⟨_, fun _ _ => by rw [withBytes_zero]; rfl⟩
  all_goals exact ⟨_, fun _ _ => rfl⟩

theorem mgmtFramesThatAreNotCommands : Claims.MgmtFramesThatAreNotCommands := by
  refine ⟨fun e he => ?_, fun code _ => ?_⟩
  · obtain ⟨-, run, hexec⟩ := exec_commandRow he
    exact mgmtSetAside_of hexec
  · refine mgmtSetAside_of (run := commandFor code) fun rx s => ?_
    rw [BitVec.ofNat_toNat, BitVec.setWidth_eq]
    rfl

/-! ### Commands refused before their own rules -/

/-- A code in no row of Table 1-5 names no command. -/
theorem commandFor_unknown {code : Byte} (h : code = 0 ∨ 0x19 < code.toNat) : commandFor code = runUnknown := by
  unfold commandFor
  rcases h with rfl | h
  · rfl
  · split
    case h_26 => rfl
    all_goals omega

theorem withBytes_few {n : Nat} {run : Command} {params : List Byte} (s : State) (h : params.length < n) :
    withBytes n run params s = (s, refused .range) := if_pos h

theorem withBytes_enough {n : Nat} {run : Command} {params : List Byte} (s : State) (h : n ≤ params.length) :
    withBytes n run params s = run params s := if_neg (Nat.not_lt.2 h)

/-- A consumed command whose unit answers this reply and leaves the state as it is. -/
theorem mgmt_refuses {code : Nat} {command : MgmtRx → Instr} {run : Command} {rx : MgmtRx} {s : State} {reply : Reply}
    (hcode : code < 256) (hexec : exec (command rx) s = mgmtStep (BitVec.ofNat 8 code) run rx s) (hc : Commanded rx s)
    (hrun : run (params rx) s = (s, reply)) : Runs (command rx) s (replied code rx reply s) := by
  rw [Runs, hexec, mgmt_run _ _ _ _ hc, hrun, BitVec.toNat_ofNat, Nat.mod_eq_of_lt hcode]

/-- A ride index above 47, and an index of no configured ride (R43). -/
theorem onRide_refuses (run : Nat → Command) {params : List Byte} (s : State) (hlen : 1 ≤ params.length) :
    (47 < u8At params 0 → onRide run params s = (s, refused .range)) ∧
      (u8At params 0 ≤ 47 → (rideAt (u8At params 0) s).cfg = none → onRide run params s = (s, refused .notFound)) := by
  refine ⟨fun h => ?_, fun hle hnone => ?_⟩
  · rw [onRide, withBytes_enough s hlen]
    exact if_pos h
  · have hunconfigured : configured (u8At params 0) s = false := by simp [configured, hnone]
    rw [onRide, withBytes_enough s hlen]
    simp [Nat.not_lt.2 hle, hunconfigured, refusedFor]

/-- The six rows that first name a ride judge its index first. -/
theorem exec_rideCommandRow {e : Nat × (MgmtRx → Instr) × Nat} (he : e ∈ rideCommandRows) :
    e.1 < 256 ∧ ∃ run, (∀ rx s, exec (e.2.1 rx) s = mgmtStep (BitVec.ofNat 8 e.1) run rx s) ∧
      ∀ params s, e.2.2 ≤ params.length →
        (47 < u8At params 0 → run params s = (s, refused .range)) ∧
          (u8At params 0 ≤ 47 → (rideAt (u8At params 0) s).cfg = none → run params s = (s, refused .notFound)) := by
  simp only [rideCommandRows, List.mem_cons, List.not_mem_nil, or_false] at he
  rcases he with rfl | rfl | rfl | rfl | rfl | rfl <;> refine ⟨by decide, _, fun _ _ => rfl, fun params s hlen => ?_⟩
  case inr.inr.inr.inl =>
    rw [runSetQueue, withBytes_enough s hlen]
    exact onRide_refuses _ s (Nat.le_trans (by decide) hlen)
  all_goals exact onRide_refuses _ s hlen

theorem commandsAreJudgedBeforeTheirRules : Claims.CommandsAreJudgedBeforeTheirRules := by
  refine ⟨fun code rx s hc hcode => ?_, fun e he rx s hc hlen => ?_, fun rx s hc hlen hfew => ?_,
    fun rx s hc hlen hfew => ?_, fun rx s hc hlen hfew => ?_, fun e he rx s hc hlen => ?_⟩
  · show mgmtStep code (commandFor code) rx s = _
    rw [commandFor_unknown hcode, mgmt_run _ _ _ _ hc]
    rfl
  · obtain ⟨hcode, run, hexec⟩ := exec_commandRow he
    exact mgmt_refuses hcode (hexec rx s) hc (withBytes_few s hlen)
  · refine mgmt_refuses (command := .issueCourtesy) (run := runIssueCourtesy) (by decide) rfl hc ?_
    rw [runIssueCourtesy, withBytes_enough s hlen]
    have htoken : tokenBytesThere 2 (params rx) = false := by
      rw [tokenBytesThere, decide_eq_false_iff_not]
      omega
    simp [htoken, refusedFor]
  · refine mgmt_refuses (command := .queryToken) (run := runQueryToken) (by decide) rfl hc ?_
    rw [runQueryToken, withBytes_enough s hlen]
    have htoken : tokenBytesThere 0 (params rx) = false := by
      rw [tokenBytesThere, decide_eq_false_iff_not]
      omega
    simp [htoken, refusedFor]
  · refine mgmt_refuses (command := .loadBoard) (run := runLoadBoard) (by decide) rfl hc ?_
    rw [runLoadBoard, withBytes_enough s hlen]
    exact if_pos hfew
  · obtain ⟨hcode, run, hexec, hrefuses⟩ := exec_rideCommandRow he
    obtain ⟨hrange, hnone⟩ := hrefuses (params rx) s hlen
    exact ⟨fun h => mgmt_refuses hcode (hexec rx s) hc (hrange h),
      fun hle h => mgmt_refuses hcode (hexec rx s) hc (hnone hle h)⟩

/-- Settles O47: every MGMT row goes through the same judgment. -/
theorem mgmtFramesAreJudgedFirst : Obligations.MgmtFramesAreJudgedFirst :=
  ⟨mgmtFramesThatAreNotCommands, commandsAreJudgedBeforeTheirRules⟩

end Sys2Proof.Machine
end

section
/-! ## The board composer on passing frames (R9, R162 to R165, R167) -/

namespace Sys2Proof.Machine

open Sys2Proof.Claims

/-! ### What a slot shows -/

/-- Table 9-2: one symbol fits a ride's state. -/
theorem statusSymbol_of {r : Ride} {symbol : Nat} (h : StatusOf r symbol) : statusSymbol r = symbol := by
  rcases h with ⟨rfl, hnone | hclosed⟩ | ⟨hcfg, ⟨rfl, hst⟩ | ⟨rfl, hst⟩ | ⟨rfl, hst, hstale⟩ | ⟨rfl, hst, hstale⟩⟩
  · simp [statusSymbol, hnone]
  · simp [statusSymbol, hclosed]
  · simp [statusSymbol, hcfg, hst]
  · simp [statusSymbol, hcfg, hst]
  · simp [statusSymbol, hcfg, hst, hstale]
  · simp [statusSymbol, hcfg, hst, hstale]

theorem configured_iff {i : Nat} (hi : i ≤ 47) (s : State) :
    configured i s = (rideAt i s).cfg.isSome := by
  simp [configured, Config.rideCount, Nat.lt_succ_of_le hi]

/-- R165: one pass symbol fits a ride. -/
theorem passSymbol_of {i : Nat} (hi : i ≤ 47) {s : State} {symbol : Nat} (h : PassSymbolOf i s symbol) :
    passSymbol i s = symbol := by
  rw [passSymbol, configured_iff hi, rideCfg]
  rcases h with ⟨rfl, hnone⟩ | ⟨c, hcfg, hshare, hbatch, ⟨rfl, hout⟩ | ⟨rfl, hopen⟩⟩
  · cases hcfg : (rideAt i s).cfg with
    | none => rfl
    | some c => simpa using fun hshare hbatch => absurd (hnone c hcfg) (by simp [hshare, hbatch])
  · simp [hcfg, hshare, hbatch, Config.noMinute, hout]
  · simp [hcfg, hshare, hbatch, Config.noMinute, hopen]

theorem shownWait_eq (r : Ride) : shownWait r = waitOf r := by
  simp [shownWait, waitOf, running, Option.isSome_iff_ne_none, Config.noMinute]

theorem slotsShowTheirRide : Claims.SlotsShowTheirRide := by
  intro set i s status pass hi hstatus hpass
  rw [rideSlot, statusSymbol_of hstatus, shownWait_eq, passSymbol_of hi hpass]

/-! ### Six bytes of a run of slots -/

/-- The six bytes of slot `j` in the bytes of a run of slots (Table 1-3). -/
def sixAt (j : Nat) (slots : List Byte) : List Byte := (slots.drop (6 * j)).take 6

theorem sentSlot_eq (rx : LineRx) (j : Nat) : sentSlot rx j = sixAt j ((bodyOf rx).drop 1) := by
  rw [sixAt, List.drop_drop]

theorem sixAt_length {j k : Nat} {slots : List Byte} (hlen : slots.length = 6 * k) (hj : j < k) :
    (sixAt j slots).length = 6 := by
  rw [sixAt, List.length_take, List.length_drop]
  omega

theorem sixAt_head {slot rest : List Byte} (h : slot.length = 6) : sixAt 0 (slot ++ rest) = slot := by
  rw [sixAt, Nat.mul_zero, List.drop_zero, ← h, List.take_left]

theorem sixAt_tail (j : Nat) {slot rest : List Byte} (h : slot.length = 6) :
    sixAt (j + 1) (slot ++ rest) = sixAt j rest := by
  rw [sixAt, Nat.mul_succ, Nat.add_comm, ← List.drop_drop, ← h, List.drop_left, h, sixAt]

theorem sixAt_drop (j : Nat) (slots : List Byte) : sixAt j (slots.drop 6) = sixAt (j + 1) slots := by
  rw [sixAt, sixAt, List.drop_drop, Nat.mul_succ, Nat.add_comm]

/-! ### Slots written in place (R163) -/

theorem slotBytes_length (b : BoardSlot) : (slotBytes b).length = 6 := rfl

theorem writeSlot_none {spec : SlotSpec} (h : spec.ride = none) (set : Nat) (sent : List Byte) (s : State) :
    writeSlot set spec sent s = sent := by
  rw [writeSlot, h]

/-- The next-return field stays as it was sent unless the record slot asks for it. -/
theorem writeSlot_some {spec : SlotSpec} {i : Nat} (h : spec.ride = some i) (set : Nat) {sent : List Byte}
    (hlen : sent.length = 6) (s : State) :
    writeSlot set spec sent s = (slotBytes (rideSlot set i s)).take (if spec.showNext then 6 else 4) ++
      sent.drop (if spec.showNext then 6 else 4) := by
  simp only [writeSlot, h]
  cases spec.showNext with
  | true =>
    simp only [if_true]
    rw [List.drop_of_length_le (Nat.le_of_eq hlen), List.append_nil, List.take_of_length_le (Nat.le_of_eq (slotBytes_length _))]
  | false => rfl

theorem writeSlot_length (set : Nat) (spec : SlotSpec) {sent : List Byte} (hlen : sent.length = 6) (s : State) :
    (writeSlot set spec sent s).length = 6 := by
  cases hride : spec.ride with
  | none => rw [writeSlot_none hride, hlen]
  | some i =>
    rw [writeSlot_some hride set hlen, List.length_append, List.length_take, List.length_drop, slotBytes_length, hlen]
    split <;> rfl

theorem writeSlots_nil (set : Nat) (specs : List SlotSpec) (s : State) : writeSlots set specs [] s = [] := by
  cases specs <;> rfl

/-- A run of whole slots is written slot by slot. -/
theorem writeSlots_cons (set : Nat) (spec : SlotSpec) (rest : List SlotSpec) {sent : List Byte} {k : Nat}
    (hlen : sent.length = 6 * (k + 1)) (s : State) :
    writeSlots set (spec :: rest) sent s =
      writeSlot set spec (sent.take 6) s ++ writeSlots set rest (sent.drop 6) s := by
  rw [writeSlots, if_neg (List.ne_nil_of_length_pos (by omega))]

theorem writeSlots_length (set : Nat) (specs : List SlotSpec) (s : State) :
    ∀ {k : Nat} {sent : List Byte}, sent.length = 6 * k → (writeSlots set specs sent s).length = 6 * k := by
  induction specs with
  | nil => exact fun hlen => hlen
  | cons spec rest ih =>
    intro k sent hlen
    cases k with
    | zero => rw [List.length_eq_zero_iff.1 hlen, writeSlots_nil]; rfl
    | succ k =>
      have hhead : (sent.take 6).length = 6 := by rw [List.length_take]; omega
      have htail : (sent.drop 6).length = 6 * k := by rw [List.length_drop]; omega
      rw [writeSlots_cons set spec rest hlen, List.length_append, writeSlot_length set spec hhead, ih htail]
      omega

/-- Slot `j` is written from record slot `j`, or stays as it was sent where the record has none. -/
theorem sixAt_writeSlots (set : Nat) (s : State) : ∀ (specs : List SlotSpec) {j k : Nat} {sent : List Byte},
    sent.length = 6 * k → j < k →
    sixAt j (writeSlots set specs sent s) =
      specs[j]?.elim (sixAt j sent) (fun spec => writeSlot set spec (sixAt j sent) s)
  | [], _, _, _, _, _ => rfl
  | spec :: rest, j, k + 1, sent, hlen, hj => by
    have hhead : (sent.take 6).length = 6 := by rw [List.length_take]; omega
    have htail : (sent.drop 6).length = 6 * k := by rw [List.length_drop]; omega
    rw [writeSlots_cons set spec rest hlen]
    cases j with
    | zero => exact sixAt_head (writeSlot_length set spec hhead s)
    | succ j =>
      rw [sixAt_tail j (writeSlot_length set spec hhead s), sixAt_writeSlots set s rest htail (Nat.lt_of_succ_lt_succ hj),
        sixAt_drop, List.getElem?_cons_succ]

/-! ### The rewritten frame -/

theorem bodyLen_of_fits {rx : LineRx} {k : Nat} (h : BoardFits rx k) :
    rx.bodyLen.toNat = 1 + 6 * k ∧ 1 + 6 * k ≤ rx.rest.length := by
  obtain ⟨-, hle⟩ := h.envelope
  have hbody := h.body
  rw [bodyOf, List.length_take] at hbody
  omega

theorem boardFits_iff (rx : LineRx) :
    (envelopeOk rx && boardBodyOk (bodyOf rx)) = true ↔ ∃ k, BoardFits rx k := by
  rw [Bool.and_eq_true, envelopeOk_iff, boardBodyOk, Bool.and_eq_true, decide_eq_true_iff, beq_iff_eq]
  exact ⟨fun ⟨henv, hfilled, hbody⟩ => ⟨_, henv, rfl, hfilled, hbody⟩,
    fun ⟨k, henv, hcount, hfilled, hbody⟩ => ⟨henv, hcount ▸ hfilled, hcount ▸ hbody⟩⟩

/-- R162, R163: what a rewritten frame keeps, and where its slots come from. -/
structure Rewritten (b : BoardRec) (rx : LineRx) (k : Nat) (s : State) (out : LineRx) : Prop where
  same : out = { rx with rest := out.rest }
  length : out.rest.length = rx.rest.length
  count : out.rest.take 1 = rx.rest.take 1
  padding : out.rest.drop rx.bodyLen.toNat = rx.rest.drop rx.bodyLen.toNat
  slots : (bodyOf out).drop 1 = writeSlots b.symbolSet b.slots ((bodyOf rx).drop 1) s

theorem rewrite_rewritten (b : BoardRec) {rx : LineRx} {k : Nat} (h : BoardFits rx k) (s : State) :
    Rewritten b rx k s (rewrite b rx s) := by
  obtain ⟨hlen, hle⟩ := bodyLen_of_fits h
  have hone : ((bodyOf rx).take 1).length = 1 := by rw [List.length_take, h.body]; omega
  have hslots : (writeSlots b.symbolSet b.slots ((bodyOf rx).drop 1) s).length = 6 * k :=
    writeSlots_length _ _ _ (by rw [List.length_drop, h.body]; omega)
  have hbody : ((bodyOf rx).take 1 ++ writeSlots b.symbolSet b.slots ((bodyOf rx).drop 1) s).length =
      rx.bodyLen.toNat := by rw [List.length_append, hone, hslots, hlen]
  exact
    { same := rfl
      length := by
        rw [rewrite, List.length_append, hbody, List.length_drop]
        omega
      count := by
        rw [rewrite, List.append_assoc, List.take_append_of_le_length (Nat.le_of_eq hone.symm), List.take_take, bodyOf, List.take_take]
        congr 1
        omega
      padding := List.drop_left' hbody
      slots := by
        show (List.take rx.bodyLen.toNat (_ ++ _)).drop 1 = _
        rw [List.take_left' hbody, List.drop_left' hone] }

/-- A slot the record leaves alone, and a slot that shows a ride (R163). -/
theorem sentSlot_rewritten {b : BoardRec} {rx out : LineRx} {k j : Nat} {s : State} (h : BoardFits rx k)
    (hout : Rewritten b rx k s out) (hj : j < k) :
    sentSlot out j = b.slots[j]?.elim (sentSlot rx j) (fun spec => writeSlot b.symbolSet spec (sentSlot rx j) s) := by
  rw [sentSlot_eq, hout.slots, sentSlot_eq]
  exact sixAt_writeSlots _ _ _ (by rw [List.length_drop, h.body]; omega) hj

/-! ### Where a BOARD frame goes -/

/-- The board table is no part of a queue's room. -/
theorem placeTransit_boards (p : Port) (f : Frame) (boards : List (Nat × BoardRec)) (s : State) :
    placeTransit p f { s with boards := boards } = { placeTransit p f s with boards := boards } := by
  have hroom : transitRoom p { s with boards := boards } = transitRoom p s := by cases p <;> rfl
  rw [placeTransit, placeTransit, hroom]
  cases transitRoom p s <;> cases p <;> rfl

theorem transitRoom_iff (p : Port) (s : State) :
    transitRoom p s = true ↔ (portUnit p s).linkUp = true ∧ (portUnit p s).transit.length < 64 := by
  rw [transitRoom, Bool.and_eq_true, decide_eq_true_iff, Config.transitPlaces]

/-- R18, R167: with room the frame joins and the refresh restarts; without it the drop is counted. -/
theorem placeRewritten_eq (index : Nat) (b : BoardRec) (f : Frame) (s : State) :
    placeRewritten index b f s =
      if (portUnit .field s).linkUp = true ∧ (portUnit .field s).transit.length < 64 then
        placeTransit .field f { s with boards := tblSet s.boards index (restartRefresh b s) }
      else bump .transitDropField s := by
  rw [placeRewritten]
  simp only [transitRoom_iff, placeTransit_boards]
  split
  case isTrue =>
    have hboards : (placeTransit .field f s).boards = s.boards := by simp
    rw [putBoard, hboards]
  case isFalse hfull =>
    refine placeTransit_drops f ?_
    rwa [Decidable.not_and_iff_not_or_not, Bool.not_eq_true, Nat.not_lt] at hfull

/-- On the park port, in service, no BOARD frame passes through (R5). -/
theorem judged_board {rx : LineRx} {s : State} (h : BoardArrives rx s) : ¬ parkPassesThrough rx s = true := by
  simp [parkPassesThrough, h.onPark, h.inService]

theorem board_runs {rx : LineRx} {s t : State} (h : BoardArrives rx s) (ht : arriveBoard rx s = t) :
    Runs (.board rx) s t :=
  (onArrival_received (h.onPark ▸ h.received) h.long _).trans (congrArg _ ht)

theorem arriveBoard_known {rx : LineRx} {s : State} {index : Nat} {b : BoardRec} (h : BoardArrives rx s)
    (hb : OfBoard rx s index b) : arriveBoard rx s = takeBoard index b rx s := by
  rw [arriveBoard, if_neg (judged_board h), destOf, hb]

theorem arriveBoard_unknown {rx : LineRx} {s : State} (h : BoardArrives rx s)
    (hb : boardOf rx.dest.toNat s = none) : arriveBoard rx s = placeTransit .field (lineFrame 0x30 rx) s := by
  rw [arriveBoard, if_neg (judged_board h), destOf, hb, h.onPark]
  rfl

theorem takeBoard_fits {rx : LineRx} {k : Nat} (h : BoardFits rx k) (index : Nat) (b : BoardRec) (s : State) :
    takeBoard index b rx s = placeRewritten index b (lineFrame 0x30 (rewrite b rx s)) s :=
  if_pos ((boardFits_iff rx).2 ⟨k, h⟩)

theorem takeBoard_malformed {rx : LineRx} (h : ∀ k, ¬ BoardFits rx k) (index : Nat) (b : BoardRec) (s : State) :
    takeBoard index b rx s = forwardFrom rx.port (lineFrame 0x30 rx) (bump .malformed s) :=
  if_neg fun hok => (((boardFits_iff rx).1 hok).elim h)

theorem boardFramesGoOn : Claims.BoardFramesAreRewritten := by
  refine ⟨fun rx s index b k h hb hfits => ?_, fun rx s index b h hb hfits => ?_,
    fun rx s h hb => board_runs h (arriveBoard_unknown h hb)⟩
  · have hout := rewrite_rewritten b hfits s
    refine ⟨rewrite b rx s, board_runs h ?_, hout.same, hout.length, hout.count, hout.padding,
      fun j hj hnone => ?_, fun j spec i hj hspec hride => ?_⟩
    · rw [arriveBoard_known h hb, takeBoard_fits hfits]
      exact placeRewritten_eq ..
    · rw [sentSlot_rewritten hfits hout hj]
      cases hspec : b.slots[j]? with
      | none => rfl
      | some spec => exact writeSlot_none (hnone spec hspec) ..
    · have hsix : (sentSlot rx j).length = 6 := by
        rw [sentSlot_eq]
        exact sixAt_length (by rw [List.length_drop, hfits.body]; omega) hj
      rw [sentSlot_rewritten hfits hout hj, hspec]
      exact writeSlot_some hride _ hsix s
  · refine board_runs h ?_
    rw [arriveBoard_known h hb, takeBoard_malformed hfits, h.onPark]
    rfl

/-- Settles O44: slots are written one by one within the frame's own length. -/
theorem boardFramesAreRewritten : Obligations.BoardFramesAreRewritten :=
  ⟨slotsShowTheirRide, boardFramesGoOn⟩

end Sys2Proof.Machine
end

section
/-! ## The reset state (R22, log 5, log 6) -/

namespace Sys2Proof.Machine

/-- The reset state is what reset makes of itself, so what reset establishes holds in it. -/
theorem resetState_reset : resetState 0 State.reset = State.reset := rfl

theorem eq_of_mem_reset_rides {r : Ride} (h : r ∈ State.reset.rides) : r = Ride.reset :=
  List.eq_of_mem_replicate h

theorem rideAt_reset {i : Nat} (hi : i < Config.rideCount) : rideAt i State.reset = Ride.reset :=
  getD_replicate_of_lt _ _ hi

theorem reset_dayShape : State.reset.dayShape := by
  refine ⟨by decide, fun _ => ⟨rfl, fun i hi => ?_⟩, by decide, fun i hi => ?_, fun e he => absurd he List.not_mem_nil⟩
  · rw [rideAt_reset hi]
    rfl
  · rw [rideAt_reset hi]
    exact fun _ => ⟨rfl, rfl⟩

theorem clock_reset_sound : Clock.reset.sound := by
  simp [Clock.reset, Clock.sound]

/-- No ride has a ring, and no hold stands (R85, R122). -/
theorem reset_roomFitsHolds : State.reset.roomFitsHolds := by
  refine ⟨fun i hi w hw => ?_, fun e he => absurd he List.not_mem_nil, fun i hi => ?_⟩
  · rw [rideAt_reset hi] at hw
    exact absurd hw List.not_mem_nil
  · rw [rideAt_reset hi]
    exact ⟨fun c hc => absurd hc (Option.not_mem_none c), rfl, .inl rfl⟩

theorem reset_roomsSound : State.reset.roomsSound := by
  refine ⟨fun r hr w hw => ?_, fun e he => absurd he List.not_mem_nil⟩
  rw [eq_of_mem_reset_rides hr] at hw
  exact absurd hw List.not_mem_nil

/-- Every class has the rate 0, which is that of no ride (R63). -/
theorem reset_settingsInRange : State.reset.settingsInRange := by
  refine ⟨fun r hr c hc => ?_, fun n hn => .inl (List.eq_of_mem_replicate hn), by decide⟩
  rw [eq_of_mem_reset_rides hr] at hc
  exact absurd hc (Option.not_mem_none c)

theorem ride_reset_sound : Ride.reset.inRange ∧ Ride.reset.outagesSound ∧ Ride.reset.postable := by
  simp [Ride.reset, Ride.inRange, Ride.outagesSound, Ride.postable, Lane.reset, Estimate.reset, outagesOrdered,
    outageOpen]

theorem reset_estimatesCurrent : State.reset.estimatesCurrent := by
  intro i hi c hc
  rw [rideAt_reset hi] at hc
  exact absurd hc (Option.not_mem_none c)

/-- Lists and token records are empty, and the next hold id is 1 (R122). -/
theorem reset_book : State.reset.listsSound ∧ State.reset.tokensSound := by
  simp [State.listsSound, State.tokensSound, State.reset, Config.passPlaces, Config.expiredPlaces]

/-- Settles O60: nothing is queued or booked after reset, and every ride is `Ride.reset`. -/
theorem theResetStateIsSound : Obligations.TheResetStateIsSound := by
  obtain ⟨hqueues, hheld, hdown, hcounters⟩ := portsSound_iff.1 (resetState_ports 0 State.reset)
  obtain ⟨hcanonical, hwhole, hsilence⟩ := silenceSound_iff.1 (resetState_silence 0 State.reset)
  rw [resetState_reset] at hqueues hheld hdown hcounters hcanonical hwhole hsilence
  have hrides : ∀ r ∈ State.reset.rides, r.inRange ∧ r.outagesSound ∧ r.postable :=
    fun r hr => eq_of_mem_reset_rides hr ▸ ride_reset_sound
  exact ⟨hqueues, hheld, hdown, hcounters, hsilence, clock_reset_sound,
    ⟨hcanonical, hwhole, reset_dayShape, reset_roomFitsHolds, reset_roomsSound⟩,
    ⟨hwhole, reset_dayShape, reset_settingsInRange, hrides, reset_estimatesCurrent⟩,
    ⟨hcanonical, hwhole, reset_dayShape, reset_settingsInRange, reset_book⟩⟩

end Sys2Proof.Machine
end

section
/-! ## Estimates and posting runs (R74 to R80) -/

namespace Sys2Proof.Machine

open Sys2Proof.Claims

/-! ### Recomputations -/

theorem recompute_configured {r : Ride} {c : RideCfg} (hc : r.cfg = some c) :
    recompute r = { r with est := { r.est with
      standbyRate := standbyRateOf r.est.throughput c.threshold c.batch r.lane.occupancy,
      rawWait := rawWaitOf c.queueBase r.q
        (standbyRateOf r.est.throughput c.threshold c.batch r.lane.occupancy) } } := by
  simp only [recompute, hc]

theorem recompute_unconfigured {r : Ride} (hc : r.cfg = none) : recompute r = r := by
  simp only [recompute, hc]

theorem theEstimateFollowsItsInputs : Claims.TheEstimateFollowsItsInputs := by
  refine ⟨fun r c n hc hn => ?_, fun r hc => recompute_unconfigured hc, fun r => rfl⟩
  rw [recompute_configured hc, hn, rawWaitOf]

/-- Settles O27: only whether R is 0 enters the rate, and a recomputation hands the ride's own M, K and R to it. -/
theorem theStandbyRate : Obligations.TheStandbyRate := by
  have whole : ∀ t m k r, k = 0 ∨ r = 0 → standbyRateOf t m k r = max 1 t := fun t m k r h => by
    rw [standbyRateOf, if_pos h]
  have shared : ∀ t m k r, k ≠ 0 → r ≠ 0 → standbyRateOf t m k r = max 1 (t * m / (m + k)) :=
    fun t m k r hk hr => by rw [standbyRateOf, if_neg (not_or.2 ⟨hk, hr⟩)]
  refine ⟨whole, shared, fun r c hc => by rw [recompute_configured hc], fun t m k r r' hr hr' => ?_⟩
  by_cases hk : k = 0
  · rw [whole t m k r (.inl hk), whole t m k r' (.inl hk)]
  · rw [shared t m k r hk (Nat.ne_of_gt hr), shared t m k r' hk (Nat.ne_of_gt hr')]

/-! ### The candidate -/

/-- A multiple of the step at or above a number, less than a step above it, is that number rounded up. -/
theorem roundedUp_eq {step wait c : Nat} (hmul : c % step = 0) (hle : wait ≤ c) (hlt : c < wait + step) :
    (wait + step - 1) / step * step = c := by
  obtain ⟨q, rfl⟩ := Nat.dvd_of_mod_eq_zero hmul
  have hstep : 0 < step := by omega
  have hq : (wait + step - 1) / step = q := by
    rw [Nat.div_eq_iff hstep]
    rw [Nat.mul_comm step q] at hle hlt
    omega
  rw [hq, Nat.mul_comm]

theorem candidateOf_eq {step top wait c : Nat} (htop : topOf step = top) (hmul : c % step = 0) (hle : wait ≤ c)
    (hlt : c < wait + step) : candidateOf step wait = min top c := by
  rw [candidateOf, htop, roundedUp_eq hmul hle hlt]

/-! ### Posting runs -/

theorem running_iff (state : RideState) : running state = true ↔ state = .opened ∨ state = .held := by
  simp [running]

/-- P is frozen in CLOSED and DOWN, and held while the ride is STALE (R78). -/
theorem postingRun_frozen {r : Ride} (h : running r.state = false ∨ r.est.stale = true) : postingRun r = r := by
  have hgate : (running r.state && !r.est.stale) = false := by
    rcases h with h | h <;> simp [h]
  unfold postingRun
  split
  · rfl
  · rw [if_neg (by simp [hgate])]

/-- A posting run that may move P: the first posting rule (R79), or the step rule (R80). -/
theorem postingRun_moves {r : Ride} {c : RideCfg} (hc : r.cfg = some c) (hrun : running r.state = true)
    (hfresh : r.est.stale = false) :
    postingRun r =
      if r.est.firstPosting then
        { r with est := { r.est with posted := candidateOf c.displayStep r.est.rawWait, firstPosting := false } }
      else
        { r with est := { r.est with
            posted := stepRule c.displayStep r.est.posted (candidateOf c.displayStep r.est.rawWait) } } := by
  simp [postingRun, hc, hrun, hfresh]

/-- A rise of one step or more is posted at once (R80). -/
theorem stepRule_rises {step posted candidate : Nat} (h : posted + step ≤ candidate) :
    stepRule step posted candidate = candidate := if_pos (.inl h)

theorem postingRunsFollowTheirRules : Claims.PostingRunsFollowTheirRules := by
  refine ⟨fun r c _ h => postingRun_frozen (h.imp_left ?_), fun r c hc hrun hfresh hfirst => ?_,
    fun r c p hc hrun hfresh hfirst hp => ?_⟩
  · rintro (h | h) <;> simp [running, h]
  · rw [postingRun_moves hc ((running_iff _).2 hrun) hfresh, if_pos hfirst]
    rfl
  · rw [postingRun_moves hc ((running_iff _).2 hrun) hfresh, if_neg (by simp [hfirst]), ← hp]
    rfl

/-- Settles O29: a recomputation and a posting run each read the ride's record alone. -/
theorem estimatesAndPostingRuns : Obligations.EstimatesAndPostingRuns :=
  ⟨theEstimateFollowsItsInputs, postingRunsFollowTheirRules⟩

/-- Settles O28: the next multiple of the step is W_raw rounded up, and a posting run with a first posting pending or
with a rise of a step sets P to the candidate. -/
theorem theCandidate : Obligations.TheCandidate := by
  refine ⟨fun wait => candidateOf_eq rfl (Nat.mod_one wait) (Nat.le_refl wait) (Nat.lt_succ_self wait),
    fun r c hc hrun hfresh hposts => ?_, fun step top hst wait c hmul hle hlt => ?_⟩
  · rw [postingRun_moves hc ((running_iff _).2 hrun) hfresh]
    split
    case isTrue => rfl
    case isFalse hfirst => exact stepRule_rises (hposts.resolve_left hfirst)
  · have htop : topOf step = top := by
      simp only [List.mem_cons, Prod.mk.injEq, List.not_mem_nil, or_false] at hst
      rcases hst with ⟨rfl, rfl⟩ | ⟨rfl, rfl⟩ | ⟨rfl, rfl⟩ <;> rfl
    exact candidateOf_eq htop hmul hle hlt

end Sys2Proof.Machine
end

section
/-! ## Dispatches (R67 to R72) -/

namespace Sys2Proof.Machine

open Sys2Proof.Claims

theorem configured_of_cfg {i : Nat} {s : State} {c : RideCfg} (hi : i ≤ 47) (hc : (rideAt i s).cfg = some c) :
    configured i s = true := by simp [configured_iff hi, hc]

/-! ### The band of N (R72) -/

/-- The band is not empty, so the order of the two clamps does not matter. -/
theorem inBand_eq (n throughput : Nat) : inBand n throughput = max (n / 4) (min (3 * n / 2) throughput) := by
  rw [inBand, clampTo]
  omega

/-! ### One dispatch of a ride, taken with the ride's own mark (R68 to R71) -/

theorem mergeLimit_of {r : Ride} {c : RideCfg} (hc : r.cfg = some c) : mergeLimit r = max c.spacing 1 := by
  simp [mergeLimit, rideCfg, hc]

theorem dispatchMerges_iff {t m : Nat} {r : Ride} {c : RideCfg} (hc : r.cfg = some c) (hm : r.est.mark = some m) :
    dispatchMerges t r = true ↔ t - m < max c.spacing 1 := by
  simp [dispatchMerges, hm, mergeLimit_of hc]

theorem dispatchMerges_eq_false {t m : Nat} {r : Ride} {c : RideCfg} (hc : r.cfg = some c)
    (hm : r.est.mark = some m) (h : max c.spacing 1 ≤ t - m) : dispatchMerges t r = false := by
  rw [Bool.eq_false_iff, Ne, dispatchMerges_iff hc hm]
  exact Nat.not_lt.2 h

section

variable {rate t f m : Nat} {r : Ride} {c : RideCfg}

theorem sampleDispatch_first (hm : r.est.mark = none) :
    sampleDispatch rate t f r = { r with est := { r.est with mark := some t, carry := 0 } } := by
  simp only [sampleDispatch, hm]

theorem sampleDispatch_merged (hc : r.cfg = some c) (hm : r.est.mark = some m) (h : t - m < max c.spacing 1) :
    sampleDispatch rate t f r = { r with est := { r.est with carry := min 65535 (r.est.carry + f) } } := by
  simp only [sampleDispatch, hm, mergeLimit_of hc, if_pos h, Config.maxCount]

theorem sampleDispatch_idle (hc : r.cfg = some c) (hm : r.est.mark = some m) (h : max c.spacing 1 ≤ t - m)
    (hidle : 900 < t - m) :
    sampleDispatch rate t f r = { r with est := { r.est with mark := some t, carry := 0 } } := by
  simp only [sampleDispatch, hm, mergeLimit_of hc, if_neg (Nat.not_lt.2 h), if_pos hidle]

/-- A ride record after a sample that moved T (R71). -/
abbrev sampledAt (t moved : Nat) (r : Ride) : Ride :=
  { r with est := { r.est with throughput := moved, mark := some t, carry := 0 } }

theorem sampleDispatch_sample (hc : r.cfg = some c) (hm : r.est.mark = some m) (h : max c.spacing 1 ≤ t - m)
    (hle : t - m ≤ 900) {moved : Nat}
    (hmoved : moved = throughputMoved rate r.est.throughput ((f + r.est.carry) * 3600 / (t - m))) :
    sampleDispatch rate t f r =
      if moved = r.est.throughput then sampledAt t moved r else reestimate (sampledAt t moved r) := by
  have hband : inBand rate (towardRate r.est.throughput ((f + r.est.carry) * 3600 / (t - m))) = moved := by
    rw [inBand_eq, hmoved, towardRate]
  simp only [sampleDispatch, hm, mergeLimit_of hc, if_neg (Nat.not_lt.2 h), if_neg (Nat.not_lt.2 hle), hband]

end

/-! ### A dispatch of a configured ride in DAY (R67) -/

/-- Two changes of one ride record are one. -/
theorem updRide_updRide (i : Nat) (f g : Ride → Ride) {s : State} (hlt : i < s.rides.length) :
    updRide i g (updRide i f s) = setRide i (g (f (rideAt i s))) s := by
  rw [updRide, rideAt_updRide_same i f s hlt, updRide, setRide_setRide]

/-- A ride that is DOWN or CLOSED takes the seats alone. -/
theorem takeDispatch_counted {i offered filled : Nat} {s : State} (hday : s.device = .day)
    (hc : configured i s = true) (hrun : running (rideAt i s).state = false) :
    takeDispatch i offered filled s = setRide i (withSeats (min filled offered) (rideAt i s)) s := by
  rw [takeDispatch, if_pos ⟨hday, hc⟩]
  simp only [hrun, Bool.false_eq_true, if_false]
  rfl

/-- An OPEN or HELD ride takes the seats, and samples the dispatch; a merged one is counted. -/
theorem takeDispatch_sampled {i offered filled : Nat} {s : State} (hday : s.device = .day)
    (hc : configured i s = true) (hrun : running (rideAt i s).state = true) :
    takeDispatch i offered filled s =
      setRide i
        (sampleDispatch (nominalRate i s) s.clock.elapsed (min filled offered)
          (withSeats (min filled offered) (rideAt i s)))
        (if dispatchMerges s.clock.elapsed (rideAt i s) then bump .dispatchMerged s else s) := by
  have hlt := lt_of_configured i s hc
  rw [takeDispatch, if_pos ⟨hday, hc⟩]
  simp only [hrun, if_true]
  split
  · exact updRide_updRide i (withSeats _) _ (s := bump .dispatchMerged s) hlt
  · exact updRide_updRide i (withSeats _) _ hlt

/-- Outside DAY, and for an unconfigured ride, a dispatch has no effect. -/
theorem takeDispatch_ignored {i offered filled : Nat} {s : State} (h : s.device ≠ .day ∨ configured i s = false) :
    takeDispatch i offered filled s = s := by
  rw [takeDispatch, if_neg]
  rintro ⟨hday, hc⟩
  rcases h with h | h
  · exact h hday
  · simp [hc] at h

/-! ### The ride as its DISPATCH finds it, after supervision (R7) -/

/-- Supervision leaves a ride's configuration and state as they were. -/
theorem rideAt_heard (rx : LineRx) (st : Station) (i : Nat) (s : State) :
    (rideAt i (heardState rx st s)).cfg = (rideAt i s).cfg ∧
      (rideAt i (heardState rx st s)).state = (rideAt i s).state := by
  rw [rideAt_hear_is rx.source.toNat i st s]
  exact ⟨rfl, rfl⟩

section

variable {rx : LineRx} {s : State} {st : Station} {i : Nat} {c : RideCfg}

/-- An accepted DISPATCH of a ride control bound to a configured ride is a dispatch of that ride. -/
theorem run_dispatch_of (h : AboutRide dispatchRow rx s st i c) {t : State}
    (ht : takeDispatch i (u8At (bodyOf rx) 0) (u8At (bodyOf rx) 1) (heardState rx st s) = t) :
    Runs (.dispatch rx) s (passedOn dispatchRow rx t) := by
  rw [Runs, run_dispatch h.accepted, dispatchEffect, h.bound, ← ht]

theorem heard_cfg (h : AboutRide dispatchRow rx s st i c) : (rideAt i (heardState rx st s)).cfg = some c :=
  (rideAt_heard rx st i s).1.trans h.known

/-- A sampled DISPATCH: the seats, and the record the sample leaves. -/
theorem run_dispatch_sampled (h : Sampled rx s st i c) {r sampled : Ride} {merged : Bool}
    (hr : rideAt i (heardState rx st s) = r) (hmerges : dispatchMerges s.clock.elapsed r = merged)
    (hsample : sampleDispatch (classRate c.classNo s) s.clock.elapsed (seatsFilled rx) (withSeats (seatsFilled rx) r)
      = sampled) :
    Runs (.dispatch rx) s
      (passedOn dispatchRow rx
        (setRide i sampled (if merged then bump .dispatchMerged (heardState rx st s) else heardState rx st s))) := by
  have hcfg := heard_cfg h.about
  have hrate : nominalRate i (heardState rx st s) = classRate c.classNo s := by
    simp [nominalRate, rideCfg, hcfg, classRate]
  have hday : (heardState rx st s).device = .day := by simpa using h.inDay
  have hclock : (heardState rx st s).clock = s.clock := by simp
  have hrun : running (rideAt i (heardState rx st s)).state = true := by
    rw [running_iff, (rideAt_heard rx st i s).2]
    exact h.moving
  refine run_dispatch_of h.about ?_
  rw [takeDispatch_sampled hday (configured_of_cfg h.about.inRange hcfg) hrun, hr, hrate, hclock, hmerges, hsample]

end

/-- Settles O25: without a mark nothing can be merged, and the sample writes mark and carry. -/
theorem theFirstDispatchBeginsSampling : Obligations.TheFirstDispatchBeginsSampling := by
  intro rx s st i c r h hr hmark
  exact run_dispatch_sampled h hr (merged := false) (by simp only [dispatchMerges, hmark])
    (sampleDispatch_first (r := withSeats (seatsFilled rx) r) hmark)

theorem aLongPauseEndsAnIdleGap : Claims.ALongPauseEndsAnIdleGap := by
  intro rx s st i c r m h hspacing hr hmark hidle
  have hcfg : r.cfg = some c := hr ▸ heard_cfg h.about
  have hlimit : max c.spacing 1 ≤ s.clock.elapsed - m := by omega
  exact run_dispatch_sampled h hr (dispatchMerges_eq_false hcfg hmark hlimit)
    (sampleDispatch_idle (r := withSeats (seatsFilled rx) r) hcfg hmark hlimit (by omega))

theorem dispatchesAreMergedOrSampled_claim : Claims.DispatchesAreMergedOrSampled := by
  refine ⟨fun rx s st i c r m h hr hmark hclose => ?_,
    fun rx s st i c r m n moved sampled h hr hmark hlimit hle hn hmoved hsampled => ?_,
    fun rx s st i c h hday hstopped => ?_, fun rx s st h hnone => ?_⟩
  · have hcfg : r.cfg = some c := hr ▸ heard_cfg h.about
    exact run_dispatch_sampled h hr ((dispatchMerges_iff hcfg hmark).2 hclose)
      (sampleDispatch_merged (r := withSeats (seatsFilled rx) r) hcfg hmark hclose)
  · have hcfg : r.cfg = some c := hr ▸ heard_cfg h.about
    subst hn hsampled
    exact run_dispatch_sampled h hr (dispatchMerges_eq_false hcfg hmark hlimit)
      (sampleDispatch_sample (r := withSeats (seatsFilled rx) r) hcfg hmark hlimit hle hmoved)
  · have hrun : running (rideAt i (heardState rx st s)).state = false := by
      rw [(rideAt_heard rx st i s).2]
      rcases hstopped with hst | hst <;> simp [running, hst]
    exact run_dispatch_of h
      (takeDispatch_counted (by simpa using hday) (configured_of_cfg h.inRange (heard_cfg h)) hrun)
  · rw [Runs, run_dispatch h, dispatchEffect]
    cases hbound : st.binding with
    | none => rfl
    | some i =>
      refine congrArg (fun t => Host.Outcome.next (passedOn dispatchRow rx t)) (takeDispatch_ignored ?_)
      rcases hnone with hday | hnone
      · exact .inl (by simpa using hday)
      · refine .inr ?_
        rw [configured, (rideAt_heard rx st i s).1]
        rcases hnone i hbound with hi | hcfg
        · simp [Config.rideCount, Nat.not_lt.2 hi]
        · simp [hcfg]

/-- Settles O26: the spacing is tried first, then the 900 s, and what is left is a sample. -/
theorem dispatchesAreMergedOrSampled : Obligations.DispatchesAreMergedOrSampled :=
  ⟨aLongPauseEndsAnIdleGap, dispatchesAreMergedOrSampled_claim⟩

end Sys2Proof.Machine
end

section
/-! ## LOAD_CLASS (R64, R65, R72, R87) -/

namespace Sys2Proof.Machine

open Sys2Proof.Claims

/-! ### The rate stored -/

/-- The bounds of a usable rate are in order, so the order of the two clamps does not matter (R64). -/
theorem storedRate_eq (v : Nat) : storedRate v = if v = 0 then 0 else max 60 (min 6000 v) := by
  rw [storedRate, clampTo]
  split
  · rfl
  · omega

theorem classRate_set {k rate : Nat} {s : State} (hk : k < s.classes.length) (j : Nat) :
    classRate j { s with classes := s.classes.set k rate } = if j = k then rate else classRate j s := by
  simp only [classRate, List.getD_eq_getElem?_getD, List.getElem?_set]
  by_cases hj : j = k
  · simp [hj, hk]
  · simp [hj, Ne.symm hj]

/-! ### A new N and one ride -/

/-- A configured ride of a class. -/
def OfClass (k : Nat) (r : Ride) : Prop := ∃ c, r.cfg = some c ∧ c.classNo = k

/-- A ride's record with T in the band of a new N, its estimate renewed when T moved (R65, R72). -/
def rebanded (rate : Nat) (r : Ride) : Ride :=
  if (clampThroughput rate r).est.throughput = r.est.throughput then clampThroughput rate r
  else reestimate (clampThroughput rate r)

/-- A ride's record after a new N is handed on at a minute (R65): the estimator's part, and the calendar's, which
computes the capacity of the future windows afresh. -/
def rerated (rate minute : Nat) (r : Ride) : Ride :=
  { rebanded rate r with
    ring := r.ring.map (recapacity minute
      (computedCapacity rate (rideCfg r).passShare (rideCfg r).windowLength)) }

theorem reestimate_keeps (r : Ride) : (reestimate r).cfg = r.cfg ∧ (reestimate r).ring = r.ring := by
  rw [reestimate, postingRun_is, recompute_is]
  exact ⟨rfl, rfl⟩

theorem rebanded_keeps (rate : Nat) (r : Ride) : (rebanded rate r).cfg = r.cfg ∧ (rebanded rate r).ring = r.ring := by
  unfold rebanded
  split
  · exact ⟨rfl, rfl⟩
  · exact reestimate_keeps _

theorem classChanged_eq (i : Nat) (s : State) :
    classChanged i s = recomputeCapacity i (updRide i (rebanded (nominalRate i s)) s) := rfl

/-- A change of a class rate at a ride of the class. -/
theorem rideAt_classChanged {i : Nat} {s : State} (hlt : i < s.rides.length) :
    rideAt i (classChanged i s) = rerated (nominalRate i s) (nowMinute s) (rideAt i s) := by
  have hat := rideAt_updRide_same i (rebanded (nominalRate i s)) s hlt
  obtain ⟨hcfg, hring⟩ := rebanded_keeps (nominalRate i s) (rideAt i s)
  have hfields : rideCfg (rebanded (nominalRate i s) (rideAt i s)) = rideCfg (rideAt i s) := by
    rw [rideCfg, hcfg, rideCfg]
  have hrate : nominalRate i (updRide i (rebanded (nominalRate i s)) s) = nominalRate i s := by
    show classRate (rideCfg (rideAt i (updRide i (rebanded (nominalRate i s)) s))).classNo s = _
    rw [hat, hfields, nominalRate]
  rw [classChanged_eq, recomputeCapacity, (setRing_is i _ _ (by simpa using hlt)).1, rideCapacity, hrate, hat, hfields,
    hring]
  rfl

theorem rideAt_classChanged_other {i j : Nat} (h : j ≠ i) (s : State) :
    rideAt j (classChanged i s) = rideAt j s := by
  rw [classChanged_eq, recomputeCapacity, setRing, rideAt_updRide_other i j _ _ h, rideAt_updRide_other i j _ _ h]

/-! ### A new N and every ride of the class, in rising order (R65) -/

/-- The hand-on to one ride index. -/
def handClassOn (k : Nat) (t : State) (i : Nat) : State :=
  if configured i t && (rideCfg (rideAt i t)).classNo == k then classChanged i t else t

theorem storeClassRate_changed {k rate : Nat} {s : State} (h : classRate k s ≠ rate) :
    storeClassRate k rate s =
      (List.range 48).foldl (handClassOn k) { s with classes := s.classes.set k rate } := if_neg h

/-- A ride of the class takes the hand-on. -/
theorem handClassOn_of {k i : Nat} {t : State} (hi : i < 48) (h : OfClass k (rideAt i t)) :
    handClassOn k t i = classChanged i t ∧ i < t.rides.length ∧ nominalRate i t = classRate k t := by
  obtain ⟨c, hcfg, rfl⟩ := h
  have hconf : configured i t = true := configured_of_cfg (Nat.le_of_lt_succ hi) hcfg
  refine ⟨if_pos (by simp [hconf, rideCfg, hcfg]), lt_of_configured i t hconf, by simp [nominalRate, rideCfg, hcfg]⟩

/-- A ride that is not of the class is passed over. -/
theorem handClassOn_not {k i : Nat} {t : State} (h : ¬ OfClass k (rideAt i t)) : handClassOn k t i = t := by
  refine if_neg fun hcond => h ?_
  simp only [Bool.and_eq_true, configured, decide_eq_true_eq, Option.isSome_iff_exists, beq_iff_eq] at hcond
  obtain ⟨⟨-, c, hcfg⟩, hclass⟩ := hcond
  exact ⟨c, hcfg, by simpa [rideCfg, hcfg] using hclass⟩

theorem handClassOn_keeps (k i : Nat) (t : State) :
    (handClassOn k t i).classes = t.classes ∧ (handClassOn k t i).clock = t.clock := by
  unfold handClassOn
  split <;> simp

/-- After the first `n` ride indices, the rides of the class below `n` have taken the new N, each from its own record,
and no other ride is touched. -/
theorem handClassOn_range (k : Nat) (s : State) (n : Nat) (hn : n ≤ 48) :
    ((List.range n).foldl (handClassOn k) s).classes = s.classes ∧
    ((List.range n).foldl (handClassOn k) s).clock = s.clock ∧
    ∀ j, (j < n → OfClass k (rideAt j s) →
        rideAt j ((List.range n).foldl (handClassOn k) s) = rerated (classRate k s) (nowMinute s) (rideAt j s)) ∧
      (¬ (j < n ∧ OfClass k (rideAt j s)) → rideAt j ((List.range n).foldl (handClassOn k) s) = rideAt j s) := by
  induction n with
  | zero => exact ⟨rfl, rfl, fun j => ⟨fun h => absurd h (Nat.not_lt_zero j), fun _ => rfl⟩⟩
  | succ n ih =>
    obtain ⟨hclasses, hclock, hrides⟩ := ih (by omega)
    rw [List.range_succ, List.foldl_append, List.foldl_cons, List.foldl_nil]
    generalize (List.range n).foldl (handClassOn k) s = t at hclasses hclock hrides ⊢
    obtain ⟨hclasses', hclock'⟩ := handClassOn_keeps k n t
    have hown : rideAt n t = rideAt n s := (hrides n).2 fun h => Nat.lt_irrefl n h.1
    have hother : ∀ j, j ≠ n → rideAt j (handClassOn k t n) = rideAt j t := fun j hj => by
      by_cases hclass : OfClass k (rideAt n t)
      · rw [(handClassOn_of hn hclass).1, rideAt_classChanged_other hj]
      · rw [handClassOn_not hclass]
    refine ⟨hclasses'.trans hclasses, hclock'.trans hclock, fun j => ?_⟩
    by_cases hj : j = n
    · subst hj
      refine ⟨fun _ hclass => ?_, fun hnot => ?_⟩
      · rw [← hown] at hclass ⊢
        obtain ⟨htakes, hlt, hrate⟩ := handClassOn_of hn hclass
        rw [htakes, rideAt_classChanged hlt, hrate, classRate, hclasses, nowMinute, nowSecond, hclock]
        rfl
      · have hclass : ¬ OfClass k (rideAt j t) := fun h => hnot ⟨Nat.lt_succ_self j, hown ▸ h⟩
        rw [handClassOn_not hclass, hown]
    · rw [hother j hj]
      refine ⟨fun hlt hclass => (hrides j).1 (by omega) hclass, fun hnot => (hrides j).2 fun h => hnot ⟨?_, h.2⟩⟩
      omega

/-! ### The command -/

theorem runLoadClass_range {params : List Byte} (s : State) (hlen : 3 ≤ params.length) (h : 15 < u8At params 0) :
    runLoadClass params s = (s, refused .range) := by
  rw [runLoadClass, withBytes_enough s hlen]
  exact if_pos h

theorem classInUse_iff (k : Nat) (s : State) :
    classInUse k s = true ↔ ∃ r ∈ s.rides, ∃ c, r.cfg = some c ∧ c.classNo = k ∧ r.state ≠ .closed := by
  simp only [classInUse, List.any_eq_true, Bool.and_eq_true, Option.any_eq_true, beq_iff_eq, bne_iff_ne, ne_eq]
  constructor
  · rintro ⟨r, hr, ⟨c, hc, hk⟩, hst⟩
    exact ⟨r, hr, c, hc, hk, hst⟩
  · rintro ⟨r, hr, c, hc, hk, hst⟩
    exact ⟨r, hr, ⟨c, hc, hk⟩, hst⟩

theorem runLoadClass_inUse {params : List Byte} {s : State} (hlen : 3 ≤ params.length) (hk : u8At params 0 ≤ 15)
    (hday : s.device = .day) (huse : classInUse (u8At params 0) s = true) :
    runLoadClass params s = (s, refused .wrongState) := by
  rw [runLoadClass, withBytes_enough s hlen]
  simp only [if_neg (Nat.not_lt.2 hk)]
  exact if_pos ⟨hday, huse⟩

theorem runLoadClass_stores {params : List Byte} {s : State} (hlen : 3 ≤ params.length) (hk : u8At params 0 ≤ 15)
    (hfree : ¬ (s.device = .day ∧ classInUse (u8At params 0) s = true)) :
    runLoadClass params s =
      (storeClassRate (u8At params 0) (storedRate (u16At params 1)) s,
       doneOrClamped (if u16At params 1 = storedRate (u16At params 1) then [] else [2])
        (.classRate (storedRate (u16At params 1)))) := by
  rw [runLoadClass, withBytes_enough s hlen]
  simp only [if_neg (Nat.not_lt.2 hk), if_neg hfree]
  rfl

/-! ### What a taken LOAD_CLASS leaves -/

theorem storeClassRate_only (k rate : Nat) (s : State) :
    storeClassRate k rate s =
      { s with classes := (storeClassRate k rate s).classes, rides := (storeClassRate k rate s).rides } := by
  apply state_eq <;> simp

theorem storeClassRate_same {k rate : Nat} {s : State} (h : classRate k s = rate) : storeClassRate k rate s = s :=
  if_pos h

/-- The rates, and the rides of the class and the others, after a taken LOAD_CLASS that changes the rate. -/
theorem storeClassRate_shows {k rate : Nat} {s : State} (hk : k < s.classes.length) (h : classRate k s ≠ rate) :
    (∀ j, classRate j (storeClassRate k rate s) = if j = k then rate else classRate j s) ∧
    (∀ i < 48, OfClass k (rideAt i s) →
      rideAt i (storeClassRate k rate s) = rerated rate (nowMinute s) (rideAt i s)) ∧
    ∀ i, ¬ OfClass k (rideAt i s) → rideAt i (storeClassRate k rate s) = rideAt i s := by
  obtain ⟨hclasses, -, hrides⟩ :=
    handClassOn_range k { s with classes := s.classes.set k rate } 48 (Nat.le_refl 48)
  have hrate : classRate k { s with classes := s.classes.set k rate } = rate := by rw [classRate_set hk, if_pos rfl]
  rw [← storeClassRate_changed h] at hclasses hrides
  rw [hrate] at hrides
  refine ⟨fun j => ?_, fun i hi hclass => (hrides i).1 hi hclass, fun i hclass => (hrides i).2 fun hof => hclass hof.2⟩
  rw [← classRate_set hk]
  simp only [classRate, hclasses]

/-- The record of the statement: the bounds of the band are in order, and a window's mark follows its capacity. -/
theorem rerated_eq {rate minute : Nat} {r banded : Ride} {c : RideCfg} (hc : r.cfg = some c)
    (hbanded : banded = { r with est := { r.est with
      throughput := max (rate / 4) (min (3 * rate / 2) r.est.throughput) } }) :
    rerated rate minute r =
      { (if banded.est.throughput = r.est.throughput then banded else reestimate banded) with
        ring := r.ring.map (recomputedWindow minute (capacityOf rate c.passShare c.windowLength)) } := by
  have hclamp : clampThroughput rate r = banded := by rw [hbanded, clampThroughput, inBand_eq]
  rw [rerated, rebanded, hclamp, rideCfg, hc]
  rfl

/-- Settles O24: each hand-on reads and writes the record of its own ride, so a ride of the class ends with what its
own record gives, in whatever order the others came. -/
theorem loadClassHandsTheRateOn : Obligations.LoadClassHandsTheRateOn := by
  refine ⟨fun rx s hc hlen hrange => ?_, fun rx s hc hlen hk hday huse => ?_,
    fun rx s k v stored hc hlen hk hk15 hclasses hfree hv hstored => ?_⟩
  · exact mgmt_refuses (run := runLoadClass) (by decide) rfl hc (runLoadClass_range s hlen hrange)
  · exact mgmt_refuses (run := runLoadClass) (by decide) rfl hc
      (runLoadClass_inUse hlen hk hday ((classInUse_iff _ s).2 huse))
  subst hk hv
  rw [← storedRate_eq] at hstored
  rw [← classInUse_iff] at hfree
  subst hstored
  refine ⟨storeClassRate (u8At (params rx) 0) (storedRate (u16At (params rx) 1)) s, ?_, storeClassRate_same, ?_⟩
  · rw [Runs, show exec (.loadClass rx) s = mgmtStep 0x03 runLoadClass rx s from rfl, mgmt_run _ _ _ _ hc,
      runLoadClass_stores hlen hk15 hfree]
    rfl
  by_cases hsame : classRate (u8At (params rx) 0) s = storedRate (u16At (params rx) 1)
  · rw [storeClassRate_same hsame]
    exact ⟨hsame, fun _ _ => rfl, fun h => absurd hsame h, fun _ _ => rfl, rfl⟩
  · obtain ⟨hrates, hof, hother⟩ := storeClassRate_shows (by omega) hsame
    refine ⟨by rw [hrates, if_pos rfl], fun j hj => by rw [hrates, if_neg hj], fun _ i hi c r hcfg hclass hr => ?_,
      fun i hi => hother i ?_, storeClassRate_only _ _ s⟩
    · rw [hof i (Nat.lt_succ_of_le hi) ⟨c, hcfg, hclass⟩, rerated_eq hcfg hr]
    · rintro ⟨c, hcfg, hclass⟩
      exact hi c hcfg hclass

end Sys2Proof.Machine
end

section
/-! ## IDENTIFY and the queries (R83, R101, R102, R121, R131, R158, R176, R185 to R187) -/

namespace Sys2Proof.Machine

open Sys2Proof.Claims

/-! ### State queries -/

/-- A command that names a configured ride runs for it. -/
theorem onRide_runs {rx : MgmtRx} {s : State} {i : Nat} {c : RideCfg} (run : Nat → Command) (h : NamesRide rx s 1 i c) :
    onRide run (params rx) s = run i (params rx) s := by
  rw [onRide, withBytes_enough s h.long]
  simp [h.index, Nat.not_lt.2 h.inRange, configured_of_cfg h.inRange h.known]

/-- R185, with R131 for the recent offers and R158 for the outstanding release. -/
theorem rideDataOf_eq {i batch seconds : Nat} {s : State} {c : RideCfg} (hcfg : (rideAt i s).cfg = some c)
    (hnone : (rideAt i s).lane.outstanding = none → batch = 0 ∧ seconds = 0)
    (hsome : ∀ o, (rideAt i s).lane.outstanding = some o → batch = o.batch ∧ seconds = o.deadline - s.clock.elapsed) :
    rideDataOf i s =
      { cfg := c, state := (rideAt i s).state, noControl := (rideAt i s).noControl, outages := (rideAt i s).outages,
        q := (rideAt i s).q, totals := (rideAt i s).totals, ignored := (rideAt i s).ignored,
        throughput := (rideAt i s).est.throughput, standbyRate := (rideAt i s).est.standbyRate,
        rawWait := (rideAt i s).est.rawWait, posted := (rideAt i s).est.posted, stale := (rideAt i s).est.stale,
        mark := (rideAt i s).est.mark, carry := (rideAt i s).est.carry, nextReturn := nextReturn i s,
        holds := (s.holds.filter (fun e => e.2.ride = i)).length,
        recentOffers := ((rideAt i s).recent.filter (fun t => s.clock.elapsed < t + c.interval)).length,
        livePasses := (s.passes.filter (fun e => e.2.ride = i)).length, occupancy := (rideAt i s).lane.occupancy,
        mergeCounter := (rideAt i s).lane.mergeCounter, releaseBatch := batch, releaseSeconds := seconds } := by
  have hfields : rideCfg (rideAt i s) = c := by rw [rideCfg, hcfg]; rfl
  cases hout : (rideAt i s).lane.outstanding with
  | none =>
    obtain ⟨rfl, rfl⟩ := hnone hout
    simp only [rideDataOf, hfields, hout]
    rfl
  | some o =>
    obtain ⟨rfl, rfl⟩ := hsome o hout
    simp only [rideDataOf, hfields, hout]
    rfl

theorem stateQueriesChangeNothing : Claims.StateQueriesChangeNothing := by
  refine ⟨fun rx s hc => ?_, fun rx s i c r h hr batch seconds hnone hsome => ?_, fun rx s i c h => ?_⟩
  · exact mgmt_refuses (run := runIdentify) (by decide) rfl hc rfl
  · subst hr
    refine mgmt_refuses (run := runQueryRide) (by decide) rfl h.commanded ?_
    rw [runQueryRide, onRide_runs _ h, rideDataOf_eq h.known hnone hsome, doneWith]
  · refine mgmt_refuses (run := runQueryWindows) (by decide) rfl h.commanded ?_
    rw [runQueryWindows, onRide_runs _ h, lengthOf, rideCfg, h.known]
    rfl

/-! ### QUERY_TOKEN (R121) -/

theorem badToken_iff (token : List Byte) (s : State) : badToken s.settings.pad token = true ↔ BadToken token s := by
  simp [badToken, BadToken, or_assoc]

/-- Keys that all have a record are listed with them. -/
theorem filterMap_known {α : Type} {get : Nat → Option α} :
    ∀ {keys : List Nat} {entries : List α}, keys.map get = entries.map some →
      keys.filterMap (fun k => (get k).map (fun e => (k, e))) = keys.zip entries
  | [], _, _ => rfl
  | _ :: _, [], h => by simp at h
  | k :: keys, e :: entries, h => by
    obtain ⟨hhead, htail⟩ := List.cons.inj h
    rw [List.filterMap_cons, hhead, List.zip_cons_cons, ← filterMap_known htail]
    rfl

theorem tokenDataOf_unknown {token : List Byte} {s : State} (h : tokenRec token s = none) :
    tokenDataOf token s = .token 0 [] := by
  rw [tokenDataOf, tokenPasses, h]
  rfl

theorem tokenDataOf_known {token : List Byte} {s : State} {r : TokenRec} {entries : List Pass}
    (h : tokenRec token s = some r) (hlive : r.passes.map (tblGet s.passes) = entries.map some) :
    tokenDataOf token s =
      .token r.holds ((r.passes.zip entries).map (fun e => answeredPass e.1 e.2 s)) := by
  simp only [tokenDataOf, tokenPasses, h, filterMap_known hlive]
  rfl

theorem runQueryToken_bad {params : List Byte} {s : State} (hlen : 1 ≤ params.length)
    (hthere : 1 + u8At params 0 ≤ params.length) (hbad : BadToken (tokenOf 0 params) s) :
    runQueryToken params s = (s, refused .range) := by
  have htoken : tokenBytesThere 0 params = true := decide_eq_true (by omega)
  rw [runQueryToken, withBytes_enough s hlen, htoken, tokenAt, (badToken_iff _ s).2 hbad]
  rfl

theorem runQueryToken_answers {params : List Byte} {s : State} (hlen : 1 ≤ params.length)
    (hthere : 1 + u8At params 0 ≤ params.length) (hok : ¬ BadToken (tokenOf 0 params) s) :
    runQueryToken params s = (s, done (tokenDataOf (normalized (tokenOf 0 params) s) s)) := by
  have htoken : tokenBytesThere 0 params = true := decide_eq_true (by omega)
  have hgood : badToken s.settings.pad (tokenOf 0 params) = false := by
    rw [Bool.eq_false_iff, Ne, badToken_iff]
    exact hok
  rw [runQueryToken, withBytes_enough s hlen, htoken, tokenAt, hgood]
  rfl

theorem tokenQueriesListThePasses : Claims.TokenQueriesListThePasses := by
  refine ⟨fun rx s hc hlen hthere hbad => ?_, fun rx s hc hlen hthere hok hnone => ?_,
    fun rx s r entries hc hlen hthere hok hknown hlive => ?_⟩ <;>
    refine mgmt_refuses (run := runQueryToken) (by decide) rfl hc ?_
  · exact runQueryToken_bad hlen hthere hbad
  · rw [runQueryToken_answers hlen hthere hok, tokenDataOf_unknown hnone]
  · rw [runQueryToken_answers hlen hthere hok, tokenDataOf_known hknown hlive]

/-! ### Walks in parts (R175, R186, R187) -/

section

variable {α : Type} {batch key : Nat} {found first beyond : List (Nat × α)} {e : α}

/-- What fits one answer is taken whole. -/
theorem walk_whole (h : found.length ≤ batch) : nextCursor batch found = none ∧ found.take batch = found :=
  ⟨if_neg (Nat.not_lt.2 h), List.take_of_length_le h⟩

/-- A full answer with more beyond it ends with its last record, and the next cursor lies just above that. -/
theorem walk_part (hfound : found = first ++ (key, e) :: beyond) (hlen : first.length + 1 = batch)
    (hmore : beyond ≠ []) :
    nextCursor batch found = some (key + 1) ∧ found.take batch = first ++ [(key, e)] := by
  have htake : found.take batch = first ++ [(key, e)] := by
    rw [hfound, ← hlen, List.take_length_add_append]
    rfl
  have hbeyond : 0 < beyond.length := List.length_pos_iff.2 hmore
  have hlong : batch < found.length := by
    rw [hfound, List.length_append, List.length_cons]
    omega
  refine ⟨?_, htake⟩
  rw [nextCursor, if_pos hlong, htake, List.getLast?_concat]
  rfl

end

/-- QUERY_PASSES refuses a ride index above 47 and a cursor above 8191 (R186). -/
theorem runQueryPasses_range {params : List Byte} (s : State) (hlen : 3 ≤ params.length)
    (h : 47 < u8At params 0 ∨ 8191 < u16At params 1) : runQueryPasses params s = (s, refused .range) := by
  rw [runQueryPasses, withBytes_enough s hlen]
  dsimp only
  split
  case isTrue => rfl
  case isFalse hi => exact if_pos (h.resolve_left hi)

theorem runQueryPasses_notFound {params : List Byte} {s : State} (hlen : 3 ≤ params.length) (hi : u8At params 0 ≤ 47)
    (hcursor : u16At params 1 ≤ 8191) (hnone : (rideAt (u8At params 0) s).cfg = none) :
    runQueryPasses params s = (s, refused .notFound) := by
  rw [runQueryPasses, withBytes_enough s hlen]
  simp [Nat.not_lt.2 hi, Nat.not_lt.2 hcursor, configured_iff hi, hnone, refusedFor]

theorem runQueryPasses_answers {rx : MgmtRx} {s : State} {i : Nat} {c : RideCfg} (h : NamesRide rx s 3 i c)
    (hcursor : u16At (params rx) 1 ≤ 8191) {found answer : List (Nat × Pass)} {next : Option Nat}
    (hfound : passesFrom i (u16At (params rx) 1) s = found)
    (hwalk : nextCursor 24 found = next ∧ found.take 24 = answer) :
    runQueryPasses (params rx) s =
      (s, inParts next (.passes i (8192 - s.passes.length) (answeredPasses answer s) next)) := by
  obtain ⟨rfl, rfl⟩ := hwalk
  subst hfound
  rw [runQueryPasses, withBytes_enough s h.long]
  simp only [h.index, if_neg (Nat.not_lt.2 h.inRange), if_neg (Nat.not_lt.2 hcursor),
    configured_of_cfg h.inRange h.known, Bool.not_true, Bool.false_eq_true, if_false]
  rfl

/-- The model's walk over a ride's passes is the statement's. -/
theorem passesFrom_eq (i cursor : Nat) (s : State) : passesFrom i cursor s = walkedPasses i cursor s := by
  refine List.filter_congr fun e _ => ?_
  rw [Bool.decide_and]
  rfl

theorem runQueryStations_range {params : List Byte} (s : State) (hlen : 2 ≤ params.length) (h : 4095 < u16At params 0) :
    runQueryStations params s = (s, refused .range) := by
  rw [runQueryStations, withBytes_enough s hlen]
  exact if_pos h

theorem answeredStations_eq (found : List (Nat × Station)) (s : State) :
    found.map (fun e => stationEntry e.1 e.2 s) = answeredStations found s := by
  refine List.map_congr_left fun e _ => ?_
  rw [stationEntry]
  cases e.2.deadline <;> rfl

theorem runQueryStations_answers {params : List Byte} {s : State} (hlen : 2 ≤ params.length)
    (hcursor : u16At params 0 ≤ 4095) {found answer : List (Nat × Station)} {next : Option Nat}
    (hfound : walkedStations (u16At params 0) s = found) (hwalk : nextCursor 32 found = next ∧ found.take 32 = answer) :
    runQueryStations params s =
      (s, inParts next (.stations s.stations.length (answeredStations answer s) next)) := by
  obtain ⟨rfl, rfl⟩ := hwalk
  subst hfound
  rw [runQueryStations, withBytes_enough s hlen, ← answeredStations_eq]
  exact if_neg (Nat.not_lt.2 hcursor)

theorem tableQueriesWalkInParts : Claims.TableQueriesWalkInParts := by
  refine ⟨fun rx s hc hlen hrange => ?_, fun rx s hc hlen hi hcursor hnone => ?_,
    fun rx s i c cursor h hat hcursor => ?_, fun rx s hc hlen hrange => ?_, fun rx s cursor hc hlen hat hcursor => ?_⟩
  · exact mgmt_refuses (run := runQueryPasses) (by decide) rfl hc (runQueryPasses_range s hlen hrange)
  · exact mgmt_refuses (run := runQueryPasses) (by decide) rfl hc (runQueryPasses_notFound hlen hi hcursor hnone)
  · subst hat
    refine ⟨fun hfits => ?_, fun first k p beyond hfound hlen hmore => ?_⟩ <;>
      refine mgmt_refuses (run := runQueryPasses) (by decide) rfl h.commanded ?_
    · exact runQueryPasses_answers h hcursor (passesFrom_eq ..) (walk_whole hfits)
    · exact runQueryPasses_answers h hcursor (passesFrom_eq ..) (walk_part hfound (by rw [hlen]) hmore)
  · exact mgmt_refuses (run := runQueryStations) (by decide) rfl hc (runQueryStations_range s hlen hrange)
  · subst hat
    refine ⟨fun hfits => ?_, fun first n st beyond hfound hfull hmore => ?_⟩ <;>
      refine mgmt_refuses (run := runQueryStations) (by decide) rfl hc ?_
    · exact runQueryStations_answers hlen hcursor rfl (walk_whole hfits)
    · exact runQueryStations_answers hlen hcursor rfl (walk_part hfound (by rw [hfull]) hmore)

/-- Settles O51: every query's unit hands the state back as it was given it. -/
theorem queriesChangeNothing : Obligations.QueriesChangeNothing :=
  ⟨stateQueriesChangeNothing, tokenQueriesListThePasses, tableQueriesWalkInParts⟩

end Sys2Proof.Machine
end

section
/-! ## Boards refreshed and loaded (R159 to R161, R168 to R170) -/

namespace Sys2Proof.Machine

open Sys2Proof.Claims

/-! ### Composed slots (R170) -/

theorem composedSlot_none {spec : SlotSpec} (h : spec.ride = none) (set : Nat) (s : State) :
    composedSlot set s spec = { status := 0, wait := 0, pass := 0, next := 0 } := by
  rw [composedSlot, h]

theorem composedSlot_some {spec : SlotSpec} {i : Nat} (h : spec.ride = some i) (set : Nat) (s : State) :
    composedSlot set s spec =
      { rideSlot set i s with next := if spec.showNext then nextReturn i s else 0xFFFF } := by
  rw [composedSlot, h]
  cases spec.showNext <;> rfl

/-! ### The refresh deadline (R168, R169, log 2) -/

/-- A refresh in service places the composed frame; the board table is no part of the queues. -/
theorem refreshBoard_inService {s : State} (h : s.device = .ready ∨ s.device = .day) (index : Nat) (b : BoardRec) :
    refreshBoard index b s =
      { broadcastTo .field b.station (.board (b.slots.map (composedSlot b.symbolSet s))) s with
        boards := tblSet s.boards index (restartRefresh b s) } := by
  have hboards : (placeOrigin .field (composedBoard b s) s).boards = s.boards := by simp
  rw [refreshBoard, if_pos h, putBoard, hboards]
  rfl

/-- Out of service the deadline alone moves on. -/
theorem refreshBoard_outOfService {s : State} (h : s.device = .unconfigured ∨ s.device = .closing) (index : Nat)
    (b : BoardRec) : refreshBoard index b s = { s with boards := tblSet s.boards index (restartRefresh b s) } := by
  have hout : ¬ (s.device = .ready ∨ s.device = .day) := by rcases h with h | h <;> simp [h]
  rw [refreshBoard, if_neg hout, putBoard]

/-- A reached refresh deadline runs the refresh of its record. -/
theorem boardRefresh_runs {index : Nat} {s : State} {b : BoardRec} (hr : s.resetHeld = false)
    (hget : tblGet s.boards index = some b) (hreached : b.deadline ≤ s.clock.elapsed) :
    Runs (.boardRefresh index) s (refreshBoard index b s) := by
  have hdue : refreshDue index s = refreshBoard index b s := by simp [refreshDue, hget, reached, hreached]
  exact (onInside_runs hr _).trans (congrArg _ hdue)

theorem refreshDue_idle {index : Nat} {s : State}
    (h : ∀ b, tblGet s.boards index = some b → s.clock.elapsed < b.deadline) : refreshDue index s = s := by
  rw [refreshDue]
  cases hget : tblGet s.boards index with
  | none => rfl
  | some b =>
    have hnot : ¬ reached (some b.deadline) s = true := by
      rw [reached, Option.any_some, decide_eq_true_iff]
      exact Nat.not_le.2 (h b hget)
    exact if_neg hnot

/-- Settles O45: the frame is composed slot by slot, and the device state decides whether it is placed. -/
theorem boardsRefreshThemselves : Obligations.BoardsRefreshThemselves := by
  refine ⟨fun index s b hr hget hreached hdev => ?_, fun index s b hr hget hreached hdev => ?_, fun index s hidle => ?_⟩
  · have hruns := boardRefresh_runs hr hget hreached
    rw [refreshBoard_inService hdev] at hruns
    refine ⟨_, hruns, List.length_map _, fun j spec hspec hnone => ?_, fun j spec i hspec hride => ?_⟩
    · rw [List.getElem?_map, hspec, Option.map_some, composedSlot_none hnone]
    · rw [List.getElem?_map, hspec, Option.map_some, composedSlot_some hride]
  · have hruns := boardRefresh_runs hr hget hreached
    rwa [refreshBoard_outOfService hdev] at hruns
  · show Host.Outcome.next (if s.resetHeld then s else refreshDue index s) = .next s
    rw [refreshDue_idle hidle, ite_self]

/-! ### What LOAD_BOARD checks and stores (R159) -/

/-- A consumed command whose unit answers this state and reply. -/
theorem mgmt_answers {code : Nat} {command : MgmtRx → Instr} {run : Command} {rx : MgmtRx} {s t : State} {reply : Reply}
    (hcode : code < 256) (hexec : exec (command rx) s = mgmtStep (BitVec.ofNat 8 code) run rx s) (hc : Commanded rx s)
    (hrun : run (params rx) s = (t, reply)) : Runs (command rx) s (replied code rx reply t) := by
  rw [Runs, hexec, mgmt_run _ _ _ _ hc, hrun, BitVec.toNat_ofNat, Nat.mod_eq_of_lt hcode]

/-- The bounds of the refresh interval are in order, so the order of the two clamps does not matter. -/
theorem clampInterval_eq (w : Nat) : clampTo 10 600 w = max 10 (min 600 w) := by
  rw [clampTo]
  omega

theorem boardStationTaken_iff (index station : Nat) (s : State) :
    boardStationTaken index station s = true ↔ ¬ ∀ e ∈ s.boards, e.1 ≠ index → e.2.station ≠ station := by
  simp [boardStationTaken]

theorem badSlotEntries_iff (count : Nat) (params : List Byte) :
    (slotEntries count params).any badSlotEntry = true ↔
      ¬ ∀ j < count, u8At params (7 + 2 * j) ≤ 47 ∨ u8At params (7 + 2 * j) = 255 := by
  simp [slotEntries, badSlotEntry]

theorem slotOf_eq (ride flag : Nat) :
    slotOf ride flag = { ride := if ride = 255 then none else some ride, showNext := decide (flag ≠ 0) } := by
  rw [slotOf, Bool.eq_iff_iff.2 (bne_iff_ne.trans decide_eq_true_iff.symm)]

theorem loadedBoard_eq (rx : MgmtRx) (s : State) :
    loadedBoard (params rx) s =
      { station := u16At (params rx) 1, symbolSet := u8At (params rx) 3,
        interval := max 10 (min 600 (u16At (params rx) 4)),
        deadline := s.clock.elapsed + max 10 (min 600 (u16At (params rx) 4)),
        slots := (List.range (u8At (params rx) 6)).map (loadedSlot rx) } := by
  have hslots : (slotEntries (u8At (params rx) 6) (params rx)).map (fun e => slotOf e.1 e.2) =
      (List.range (u8At (params rx) 6)).map (loadedSlot rx) := by
    rw [slotEntries, List.map_map]
    exact List.map_congr_left fun j _ => slotOf_eq _ _
  rw [loadedBoard, hslots, clampInterval_eq]

theorem loadBoardRecord_stores {rx : MgmtRx} {s : State}
    (h : BoardChecks rx s (u8At (params rx) 0) (u8At (params rx) 6)) :
    loadBoardRecord (params rx) s =
      (putBoard (u8At (params rx) 0) (loadedBoard (params rx) s) s,
       doneOrClamped (clampedAt 4 10 600 (u16At (params rx) 4)) .empty) := by
  obtain ⟨hstation, hfree, hset, hcount, hslots⟩ := h
  have hplace : ¬ (badStationNumber (u16At (params rx) 1) s = true ∨
      boardStationTaken (u8At (params rx) 0) (u16At (params rx) 1) s = true) := by
    rw [badStationNumber_iff, boardStationTaken_iff]
    exact fun hbad => hbad.elim (· hstation) (· hfree)
  have hentries : ¬ (slotEntries (u8At (params rx) 6) (params rx)).any badSlotEntry = true := by
    rw [badSlotEntries_iff]
    exact (· hslots)
  simp only [loadBoardRecord, if_neg hplace, if_neg (Nat.not_lt.2 hset),
    if_neg (show ¬ Config.boardSlots < u8At (params rx) 6 from Nat.not_lt.2 hcount), if_neg hentries]
  rfl

/-- Every check that fails is answered RANGE, so that only a record that passes them all is stored. -/
theorem loadBoardRecord_range {rx : MgmtRx} {s : State}
    (h : ¬ BoardChecks rx s (u8At (params rx) 0) (u8At (params rx) 6)) :
    loadBoardRecord (params rx) s = (s, refused .range) := by
  rw [loadBoardRecord]
  split
  case isTrue => rfl
  case isFalse hplace =>
    rw [badStationNumber_iff, boardStationTaken_iff, not_or, Classical.not_not, Classical.not_not] at hplace
    obtain ⟨hstation, hfree⟩ := hplace
    split
    case isTrue => rfl
    case isFalse hset =>
      split
      case isTrue => rfl
      case isFalse hcount =>
        refine if_pos ((badSlotEntries_iff _ _).2 fun hslots => h ?_)
        exact ⟨hstation, hfree, Nat.not_lt.1 hset, Nat.not_lt.1 hcount, hslots⟩

theorem removeBoardRecord_removes {index : Nat} {s : State} {b : BoardRec} (h : tblGet s.boards index = some b) :
    removeBoardRecord index s = ({ s with boards := tblErase s.boards index }, done .empty) :=
  if_pos (by rw [h]; rfl)

theorem removeBoardRecord_notFound {index : Nat} {s : State} (h : tblGet s.boards index = none) :
    removeBoardRecord index s = (s, refused .notFound) :=
  if_neg (by simp [h])

/-! ### The three ways of LOAD_BOARD -/

/-- With all its bytes there, LOAD_BOARD judges the index, then the slot count tells removal from loading. -/
theorem runLoadBoard_eq {rx : MgmtRx} {s : State} {index count : Nat} (h : LoadsBoard rx s index count) :
    runLoadBoard (params rx) s =
      if 63 < index then (s, refused .range)
      else if count = 0 then removeBoardRecord index s
      else loadBoardRecord (params rx) s := by
  obtain ⟨-, ⟨hfixed, hslots⟩, rfl, rfl⟩ := h
  rw [runLoadBoard, withBytes_enough s hfixed]
  exact if_neg (Nat.not_lt.2 hslots)

theorem runLoadBoard_stores {rx : MgmtRx} {s : State} {index count w interval : Nat} {b : BoardRec}
    (h : LoadsBoard rx s index count) (hindex : index ≤ 63) (hcount : count ≠ 0)
    (hchecks : BoardChecks rx s index count) (hw : u16At (params rx) 4 = w) (hinterval : interval = max 10 (min 600 w))
    (hb : b = { station := u16At (params rx) 1, symbolSet := u8At (params rx) 3, interval := interval,
                deadline := s.clock.elapsed + interval, slots := (List.range count).map (loadedSlot rx) }) :
    runLoadBoard (params rx) s =
      ({ s with boards := tblSet s.boards index b },
       doneOrClamped (if w = interval then [] else [4]) .empty) := by
  rw [runLoadBoard_eq h, if_neg (Nat.not_lt.2 hindex), if_neg hcount]
  obtain ⟨-, -, rfl, rfl⟩ := h
  subst hw hinterval
  rw [loadBoardRecord_stores hchecks, loadedBoard_eq, ← hb, clampedAt, clampInterval_eq]
  simp only [eq_comm, putBoard]

theorem runLoadBoard_range {rx : MgmtRx} {s : State} {index count : Nat} (h : LoadsBoard rx s index count)
    (hbad : 63 < index ∨ (count ≠ 0 ∧ ¬ BoardChecks rx s index count)) :
    runLoadBoard (params rx) s = (s, refused .range) := by
  rw [runLoadBoard_eq h]
  split
  case isTrue => rfl
  case isFalse hindex =>
    obtain ⟨hcount, hchecks⟩ := hbad.resolve_left hindex
    rw [if_neg hcount]
    obtain ⟨-, -, rfl, rfl⟩ := h
    exact loadBoardRecord_range hchecks

/-- A slot count of 0 takes the record away, if there is one (R160). -/
theorem runLoadBoard_removal {rx : MgmtRx} {s : State} {index : Nat} (h : LoadsBoard rx s index 0)
    (hindex : index ≤ 63) : runLoadBoard (params rx) s = removeBoardRecord index s := by
  rw [runLoadBoard_eq h, if_neg (Nat.not_lt.2 hindex), if_pos rfl]

/-! ### LOAD_SYMBOLS (R161) -/

/-- The eight codes of a LOAD_SYMBOLS, after its set number. -/
def loadedCodes (params : List Byte) : List Byte := (params.drop 1).take 8

theorem loadedCodes_getD (params : List Byte) {symbol : Nat} (h : symbol < 8) :
    (loadedCodes params).getD symbol 0 = params.getD (1 + symbol) 0 := by
  simp [loadedCodes, List.getD_eq_getElem?_getD, Nat.add_comm, h]

theorem runLoadSymbols_stores {params : List Byte} (s : State) (hlen : 9 ≤ params.length) (hset : u8At params 0 ≤ 7) :
    runLoadSymbols params s =
      ({ s with symbols := s.symbols.set (u8At params 0) (loadedCodes params) }, done .empty) := by
  rw [runLoadSymbols, withBytes_enough s hlen]
  exact if_neg (Nat.not_lt.2 hset)

theorem runLoadSymbols_range {params : List Byte} (s : State) (hlen : 9 ≤ params.length) (hset : 7 < u8At params 0) :
    runLoadSymbols params s = (s, refused .range) := by
  rw [runLoadSymbols, withBytes_enough s hlen]
  exact if_pos hset

/-- The set that is loaded shows the new codes. -/
theorem symbolCode_set_same {set : Nat} {s : State} (h : set < s.symbols.length) (codes : List Byte) (symbol : Nat) :
    symbolCode set symbol { s with symbols := s.symbols.set set codes } = codes.getD symbol 0 := by
  simp [symbolCode, List.getD_eq_getElem?_getD, h]

/-- Every other set shows what it showed. -/
theorem symbolCode_set_other {set other : Nat} (h : other ≠ set) (codes : List Byte) (symbol : Nat) (s : State) :
    symbolCode other symbol { s with symbols := s.symbols.set set codes } = symbolCode other symbol s := by
  simp [symbolCode, List.getD_eq_getElem?_getD, List.getElem?_set_ne h.symm]

/-- Settles O46: the unit's checks are those of the statement, and what it stores is what the statement writes. -/
theorem boardsAndSymbolsAreLoaded : Obligations.BoardsAndSymbolsAreLoaded := by
  refine ⟨fun rx s index count w interval b h hindex hcount hchecks hw hinterval hb => ?_,
    fun rx s index count h hbad => ?_, fun rx s index b h hindex hget => ?_, fun rx s index h hindex hget => ?_,
    fun rx s set hc hlen hset hle hsymbols => ?_, fun rx s hc hlen hset => ?_⟩
  · exact mgmt_answers (run := runLoadBoard) (by decide) rfl h.commanded
      (runLoadBoard_stores h hindex hcount hchecks hw hinterval hb)
  · exact mgmt_refuses (run := runLoadBoard) (by decide) rfl h.commanded (runLoadBoard_range h hbad)
  · exact mgmt_answers (run := runLoadBoard) (by decide) rfl h.commanded
      ((runLoadBoard_removal h hindex).trans (removeBoardRecord_removes hget))
  · exact mgmt_refuses (run := runLoadBoard) (by decide) rfl h.commanded
      ((runLoadBoard_removal h hindex).trans (removeBoardRecord_notFound hget))
  · subst hset
    refine ⟨_, mgmt_answers (run := runLoadSymbols) (by decide) rfl hc (runLoadSymbols_stores s hlen hle),
      fun symbol hsymbol => ?_, fun other symbol hother => symbolCode_set_other hother _ symbol s, rfl⟩
    rw [symbolCode_set_same (by omega), loadedCodes_getD _ hsymbol, u8At]
  · exact mgmt_refuses (run := runLoadSymbols) (by decide) rfl hc (runLoadSymbols_range s hlen hset)

end Sys2Proof.Machine
end

section
/-! ## LOAD_PARK, SET_MASK and PURGE (R177, R181, R182, R190) -/

namespace Sys2Proof.Machine

open Sys2Proof.Claims

/-! ### LOAD_PARK (R177) -/

/-- Between bounds that are in order, the order of the two clamps does not matter. -/
theorem clampTo_eq_between {low high : Nat} (h : low ≤ high) (v : Nat) : clampTo low high v = between low high v := by
  rw [clampTo, between]
  omega

theorem parkSettings_eq {params : List Byte} {pad : Byte} (hpad : params[1]? = some pad) :
    parkSettings params =
      { tokenLimit := between 1 4 (u8At params 0), pad := pad, holdTime := between 5 60 (u8At params 2) } := by
  have hpad' : params.getD 1 0 = pad := by rw [List.getD_eq_getElem?_getD, hpad, Option.getD_some]
  rw [parkSettings, clampTo_eq_between (by decide), clampTo_eq_between (by decide), hpad']

theorem runLoadPark_stores {params : List Byte} {s : State} {pad : Byte} (hlen : 3 ≤ params.length)
    (hdev : s.device = .unconfigured ∨ s.device = .ready) (hpad : params[1]? = some pad) {d : Settings}
    (hd : d = { tokenLimit := between 1 4 (u8At params 0), pad := pad, holdTime := between 5 60 (u8At params 2) }) :
    runLoadPark params s =
      ({ s with settings := d },
       doneOrClamped ((if between 1 4 (u8At params 0) = u8At params 0 then [] else [1]) ++
         (if between 5 60 (u8At params 2) = u8At params 2 then [] else [3])) (.parkSettings d)) := by
  rw [runLoadPark, withBytes_enough s hlen, if_pos hdev, parkSettings_eq hpad, ← hd, clampedAt, clampedAt,
    clampTo_eq_between (by decide), clampTo_eq_between (by decide), carriedOut]

theorem runLoadPark_wrongState {params : List Byte} {s : State} (hlen : 3 ≤ params.length)
    (hdev : s.device = .day ∨ s.device = .closing) : runLoadPark params s = (s, refused .wrongState) := by
  have hout : ¬ (s.device = .unconfigured ∨ s.device = .ready) := by rcases hdev with h | h <;> simp [h]
  rw [runLoadPark, withBytes_enough s hlen]
  exact if_neg hout

/-! ### SET_MASK (R190) -/

theorem runSetMask_stores {params : List Byte} (s : State) (hlen : 1 ≤ params.length) (hle : u8At params 0 ≤ 15) :
    runSetMask params s = ({ s with reportMask := u8At params 0 }, done (.mask (u8At params 0))) := by
  rw [runSetMask, withBytes_enough s hlen]
  exact if_neg (Nat.not_lt.2 hle)

theorem runSetMask_range {params : List Byte} (s : State) (hlen : 1 ≤ params.length) (h : 15 < u8At params 0) :
    runSetMask params s = (s, refused .range) := by
  rw [runSetMask, withBytes_enough s hlen]
  exact if_pos h

/-- Settles O48: with all its bytes there, LOAD_PARK asks for the device state alone and SET_MASK for the level. -/
theorem parkSettingsAndMask : Obligations.ParkSettingsAndMask := by
  refine ⟨fun rx s limit pad hold hc hlen hdev hlimit hpad hhold d hd => ?_, fun rx s hc hlen hdev => ?_,
    fun rx s level hc hlen hlevel hle => ?_, fun rx s hc hlen hgt => ?_⟩
  · subst hlimit hhold
    exact mgmt_answers (run := runLoadPark) (by decide) rfl hc (runLoadPark_stores hlen hdev hpad hd)
  · exact mgmt_refuses (run := runLoadPark) (by decide) rfl hc (runLoadPark_wrongState hlen hdev)
  · subst hlevel
    exact mgmt_answers (run := runSetMask) (by decide) rfl hc (runSetMask_stores s hlen hle)
  · exact mgmt_refuses (run := runSetMask) (by decide) rfl hc (runSetMask_range s hlen hgt)

/-! ### Passes freed without a log (R106, R181) -/

/-- A change of a token record writes the token table alone. -/
theorem updToken_only (token : List Byte) (f : TokenRec → TokenRec) (s : State) :
    updToken token f s = { s with tokens := (updToken token f s).tokens } := by
  rw [updToken, putToken]
  split <;> rfl

theorem dropPass_eq_unlisted (token : List Byte) (k : Nat) (s : State) : dropPass token k s = unlisted token k s := by
  have hne : (fun j : Nat => j != k) = fun j => decide (j ≠ k) := by
    funext j
    rw [Bool.eq_iff_iff, bne_iff_ne, decide_eq_true_iff]
  rw [dropPass, hne]

/-- A freed pass leaves its entry and its token's list, and nothing else changes. -/
theorem freePass_eq (k : Nat) (p : Pass) (s : State) :
    freePass k p s = { s with passes := tblErase s.passes k, tokens := (unlisted p.token k s).tokens } := by
  rw [freePass, dropPass_eq_unlisted, unlisted, updToken_only]

/-- Pass indices off their tokens' lists, one after the other. -/
def listedOff (batch : List (Nat × Pass)) (s : State) : State :=
  batch.foldl (fun t e => unlisted e.2.token e.1 t) s

/-- Which token records are left depends on the token table alone. -/
theorem listedOff_tokens (batch : List (Nat × Pass)) (s t : State) (h : s.tokens = t.tokens) :
    (listedOff batch s).tokens = (listedOff batch t).tokens := by
  unfold listedOff
  induction batch generalizing s t with
  | nil => exact h
  | cons e rest ih => exact ih _ _ (updToken_tokens _ _ _ _ h)

/-- A batch of freed passes leaves their entries and their tokens' lists, and nothing else changes. -/
theorem freePasses_eq (batch : List (Nat × Pass)) (s : State) :
    batch.foldl (fun t e => freePass e.1 e.2 t) s =
      { s with passes := s.passes.filter (fun e => e.1 ∉ batch.map Prod.fst), tokens := (listedOff batch s).tokens } := by
  induction batch generalizing s with
  | nil =>
    have hall : s.passes.filter (fun e => e.1 ∉ ([] : List (Nat × Pass)).map Prod.fst) = s.passes :=
      List.filter_eq_self.2 (by simp)
    rw [hall]
    rfl
  | cons e rest ih =>
    have hpasses : (tblErase s.passes e.1).filter (fun d => d.1 ∉ rest.map Prod.fst) =
        s.passes.filter (fun d => d.1 ∉ (e :: rest).map Prod.fst) := by
      rw [tblErase, List.filter_filter]
      refine List.filter_congr fun d _ => ?_
      rw [Bool.eq_iff_iff, Bool.and_eq_true, decide_eq_true_iff, bne_iff_ne, decide_eq_true_iff, List.map_cons,
        List.mem_cons, not_or, and_comm]
    have htokens : (listedOff rest (freePass e.1 e.2 s)).tokens = (listedOff (e :: rest) s).tokens :=
      listedOff_tokens rest _ _ (by rw [freePass_eq])
    rw [List.foldl_cons, ih, htokens, freePass_eq, hpasses]

/-! ### PURGE (R181, R182) -/

/-- What a PURGE from `cursor` frees: the live passes of its batch of entries (R181). -/
theorem purgeFreed_eq {s : State} (hw : tblWf s.passes) (cursor : Nat) :
    purgeFreed cursor s =
      { s with passes := s.passes.filter (fun e => ¬ InBatch cursor e.1),
               tokens := (listedOff (purgeBatchOf cursor s) s).tokens } := by
  have hleft : s.passes.filter (fun e => e.1 ∉ (purgeBatchOf cursor s).map Prod.fst) =
      s.passes.filter (fun e => ¬ InBatch cursor e.1) :=
    (filter_keys s.passes hw _).trans (List.filter_congr fun e _ => decide_not.symm)
  rw [purgeFreed, freePasses_eq, hleft]

section

variable {s u : State} {cursor : Nat} (params : List Byte)

/-- While passes remain, the cursor moves behind the batch (R181). -/
theorem runPurge_inPart (hdev : s.device = .closing) (hcursor : s.purgeCursor = some cursor)
    (hu : purgeFreed cursor s = u) (hleft : u.passes ≠ []) :
    runPurge params s =
      ({ u with purgeCursor := some (min (cursor + 1024) 8192) },
       { result := .inPart, adjusted := [],
         data := .purged (min (cursor + 1024) 8192) (purgeBatchOf cursor s).length u.passes.length }) := by
  have hafter : purgeCursorAfter cursor s = min (cursor + 1024) 8192 := if_neg (by rw [hu]; exact hleft)
  rw [runPurge, if_neg (not_not_intro hdev)]
  simp only [hcursor, Option.getD_some, hu, hafter, if_neg hleft]
  rfl

/-- When no pass remains, rings and cursor go, and READY is entered from CLOSING with its report (R173, R182). -/
theorem runPurge_completes (hdev : s.device = .closing) (hcursor : s.purgeCursor = some cursor)
    (hu : purgeFreed cursor s = u) (hnone : u.passes = []) :
    runPurge params s =
      (dayReported 0x0301
        { u with device := .ready, purgeCursor := none, rides := u.rides.map (fun r : Ride => { r with ring := [] }) },
       done (.purged (match (purgeBatchOf cursor s).getLast? with | some e => e.1 + 1 | none => cursor)
         (purgeBatchOf cursor s).length 0)) := by
  have hafter : purgeCursorAfter cursor s =
      match (purgeBatchOf cursor s).getLast? with | some e => e.1 + 1 | none => cursor :=
    if_pos (by rw [hu]; exact hnone)
  have hclosing : u.device = .closing := by
    rw [← hu, purgeFreed, freePasses_eq]
    exact hdev
  rw [runPurge, if_neg (not_not_intro hdev)]
  simp only [hcursor, Option.getD_some, hu, hafter, if_pos hnone, completePurge, enterDevice, hclosing]
  rw [hnone]
  rfl

theorem runPurge_wrongState (hdev : s.device ≠ .closing) : runPurge params s = (s, refused .wrongState) := if_pos hdev

end

/-- Settles O50: freeing a batch reads and writes the pass table and the token table alone, and what it leaves of the
pass table tells the two answers apart. -/
theorem purgesEmptyThePassTable : Obligations.PurgesEmptyThePassTable := by
  refine ⟨fun rx s cursor batch hc hdev hcursor hw hbatch u hu => ?_, fun rx s hc hdev => ?_⟩
  · have hbatch' : batch = purgeBatchOf cursor s := hbatch
    have hfreed : purgeFreed cursor s = u := by rw [purgeFreed_eq hw, hu, hbatch', listedOff]
    have hrides : u.rides = s.rides := by rw [hu]
    rw [hbatch', ← hrides]
    exact ⟨fun hleft => mgmt_answers (run := runPurge) (by decide) rfl hc (runPurge_inPart _ hdev hcursor hfreed hleft),
      fun hnone => mgmt_answers (run := runPurge) (by decide) rfl hc (runPurge_completes _ hdev hcursor hfreed hnone)⟩
  · exact mgmt_refuses (run := runPurge) (by decide) rfl hc (runPurge_wrongState _ hdev)

end Sys2Proof.Machine
end

section
/-! ## Reports (R189, R191, R192) -/

namespace Sys2Proof.Machine

open Sys2Proof.Claims

section

variable {kind : ReportKind} {s : State} (subject detail : Nat)

theorem report_masked (h : reportLevel kind < s.reportMask) : report kind subject detail s = s := if_pos h

theorem report_lost (hmask : s.reportMask ≤ reportLevel kind) (hfull : 32 ≤ s.reportQueue.length) :
    report kind subject detail s = bump .reportLost s :=
  (if_neg (Nat.not_lt.2 hmask)).trans (if_neg (Nat.not_lt.2 hfull))

theorem report_joins (hmask : s.reportMask ≤ reportLevel kind) (hroom : s.reportQueue.length < 32) :
    report kind subject detail s =
      moveReports { s with reportQueue := s.reportQueue ++
        [{ kind := kind, subject := subject, detail := detail, parkSecond := s.clock.parkTime }] } :=
  (if_neg (Nat.not_lt.2 hmask)).trans (if_pos hroom)

end

/-- Placing a frame does not read the report queue. -/
theorem placeOrigin_reportQueue (p : Port) (f : OriginFrame) (s : State) (q : List Report) :
    placeOrigin p f { s with reportQueue := q } = { placeOrigin p f s with reportQueue := q } := by
  have hroom : originRoom p { s with reportQueue := q } = originRoom p s := rfl
  rw [placeOrigin, placeOrigin, hroom]
  split
  · cases p <;> rfl
  · rfl

/-- Moving a list of waiting reports does not read the report queue it leaves behind. -/
theorem moveReportsFrom_reportQueue (waiting : List Report) (s : State) (q : List Report) :
    moveReportsFrom waiting { s with reportQueue := q } = moveReportsFrom waiting s := by
  induction waiting generalizing s with
  | nil => rfl
  | cons r rest ih =>
    rw [moveReportsFrom, moveReportsFrom]
    split
    · rw [placeOrigin_reportQueue]
      exact ih _
    · rfl

theorem moveReports_stays {s : State} (h : s.reportQueue = [] ∨ 8 ≤ s.park.origin.length) : moveReports s = s := by
  rw [moveReports]
  cases hqueue : s.reportQueue with
  | nil => rw [moveReportsFrom, ← hqueue]
  | cons r rest =>
    have hfull : ¬ s.park.origin.length < Config.reportMark := Nat.not_lt.2 (h.resolve_left (by simp [hqueue]))
    rw [moveReportsFrom, if_neg hfull, ← hqueue]

theorem moveReports_head {s : State} {r : Report} {rest : List Report} (hqueue : s.reportQueue = r :: rest)
    (hroom : s.park.origin.length < Config.reportMark) :
    moveReports s = moveReports { broadcastTo .park 4095 (.report r) s with reportQueue := rest } := by
  rw [moveReports, hqueue, moveReportsFrom, if_pos hroom]
  exact (moveReportsFrom_reportQueue rest _ rest).symm

/-- Settles O6: a report meets the mask, then the queue's 32 places; what waits moves from the head, and the moves of
the rest do not depend on the queue's record while they are under way. -/
theorem reportsAreMaskedQueuedAndMoved : Obligations.ReportsAreMaskedQueuedAndMoved :=
  ⟨fun _ subject detail _ => ⟨report_masked subject detail, report_lost subject detail, report_joins subject detail⟩,
    fun _ => moveReports_stays, fun _ _ _ => moveReports_head⟩

end Sys2Proof.Machine
end

section
/-! ## Event counters (R194, R195) -/

namespace Sys2Proof.Machine

open Sys2Proof.Claims

/-! ### Counters by their place in Table 11-2 -/

/-- Table 11-2 lists the counters in the order in which they are declared. -/
theorem counterValues_place (name : Counter) (c : Counters) :
    (counterValues c)[name.ctorIdx]? = some (readCounter name c) := by
  cases name <;> rfl

/-- Raising a counter changes the table in that counter's place alone. -/
theorem counterValues_addCounter (name : Counter) (n : Nat) (c : Counters) :
    counterValues (addCounter name n c) = (counterValues c).modify name.ctorIdx (raiseCounter n) := by
  cases name <;> rfl

theorem counter_place_inj {a b : Counter} : a.ctorIdx = b.ctorIdx ↔ a = b := by
  refine ⟨fun h => ?_, congrArg _⟩
  rw [← Counter.ofNat_ctorIdx a, h, Counter.ofNat_ctorIdx]

theorem readCounter_addCounter (name other : Counter) (n : Nat) (c : Counters) :
    readCounter other (addCounter name n c) =
      if other = name then raiseCounter n (readCounter name c) else readCounter other c := by
  have hplace := counterValues_place other (addCounter name n c)
  rw [counterValues_addCounter, List.getElem?_modify, counterValues_place, Option.map_eq_map, Option.map_some,
    Option.some.injEq] at hplace
  rw [← hplace]
  by_cases h : other = name
  · subst h
    rw [if_pos rfl, if_pos rfl]
  · rw [if_neg h, if_neg (fun hidx => h (counter_place_inj.1 hidx.symm))]

/-! ### READ_COUNTERS -/

theorem runReadCounters_answers {params : List Byte} (s : State) (hlen : 1 ≤ params.length) :
    runReadCounters params s =
      (if u8At params 0 = 0 then s else { s with counters := Counters.zero },
       done (.counters s.counters (8192 - s.passes.length))) :=
  withBytes_enough s hlen

/-- Settles O7: an event raises one place of Table 11-2, and READ_COUNTERS answers the table as it was before it is
cleared. -/
theorem countersHoldAndAreRead : Obligations.CountersHoldAndAreRead :=
  ⟨fun name other s => readCounter_addCounter name other 1 s.counters,
    fun _ s hc hlen => mgmt_answers (run := runReadCounters) (by decide) rfl hc (runReadCounters_answers s hlen)⟩

end Sys2Proof.Machine
end

section
/-! ## Commands and the queue of waiting commands (log 2, log 3, log 4) -/

namespace Sys2Proof.Machine

open Sys2Proof.Claims

/-- A change of the state that leaves the waiting commands as they were. -/
def KeepsPending (effect : State → State) : Prop := ∀ s, (effect s).pending = s.pending

/-! ### The moves and the station table write no waiting command -/

theorem pending_moves (l : List Instr) : MovesKeep (fun s => s.pending = l) where
  transit _ _ _ h := by simpa using h
  origin _ _ _ h := by simpa using h
  counted _ _ h := h
  cleared _ h := h
  reported _ _ _ _ h := by simpa using h
  ride _ _ _ _ h := h
  everyRide _ _ _ h := h
  configured _ _ _ h := by simpa using h
  pass _ _ _ h := h
  passFreed _ _ h := h
  token _ _ h := by simpa using h
  hold _ _ h := h
  holdFreed _ _ h := h
  expired _ _ h := h
  board _ _ _ h := h
  boardFreed _ _ h := h
  classRate _ _ _ h := h
  symbolSet _ _ _ h := h
  clock _ _ h := h
  device _ _ h := h
  cursor _ _ h := h
  settings _ _ h := h
  mask _ _ h := h

theorem pending_stations (l : List Instr) : StationsKeep (fun s => s.pending = l) where
  heard _ _ _ _ h := by simpa using h
  baseline _ _ _ h := by simpa using h
  silent _ _ _ _ h := by simpa using h
  stored _ _ _ _ h := by simpa using h
  removed _ _ h := by simpa [removeStation] using h

theorem commandFor_pending (code : Byte) (params : List Byte) (s : State) :
    (commandFor code params s).1.pending = s.pending :=
  (pending_moves _).commandFor params rfl ((pending_stations _).runLoadStation params rfl)
    ((pending_stations _).runRemoveStation params rfl) code

theorem hear_pending (n : Nat) (st : Station) (s : State) : (hear n st s).pending = s.pending := by simp

/-! ### Arriving frames -/

theorem forwardFrom_keepsPending (p : Port) (f : Frame) : KeepsPending (forwardFrom p f) := by simp [KeepsPending]

section
variable {kind : Byte} {roles : List Role} {bodyOk : List Byte → Bool}
  {effect : Station → State → State} {rx : LineRx}

theorem observe_keepsPending (h : ∀ st, KeepsPending (effect st)) :
    KeepsPending (observe kind roles bodyOk effect rx) := by
  intro s
  unfold observe
  split
  · exact forwardFrom_keepsPending _ _ s
  · split
    · exact forwardFrom_keepsPending _ _ (bump _ s)
    · exact (forwardFrom_keepsPending _ _ _).trans ((h _ _).trans (hear_pending _ _ s))

theorem consume_keepsPending (h : ∀ st, KeepsPending (effect st)) :
    KeepsPending (consume kind roles bodyOk effect rx) := by
  intro s
  unfold consume
  split
  · exact forwardFrom_keepsPending _ _ s
  · split
    · rfl
    · exact (h _ _).trans (hear_pending _ _ s)

end

theorem arriveBoard_keepsPending (rx : LineRx) : KeepsPending (arriveBoard rx) := by
  intro s
  unfold arriveBoard
  split
  · exact forwardFrom_keepsPending _ _ s
  · split
    · exact forwardFrom_keepsPending _ _ s
    · unfold takeBoard
      split
      · exact (pending_moves _).placeRewritten _ _ _ rfl
      · exact forwardFrom_keepsPending _ _ (bump _ s)

theorem arriveTime_keepsPending (rx : LineRx) : KeepsPending (arriveTime rx) := by
  intro s
  unfold arriveTime
  split
  · exact forwardFrom_keepsPending _ _ s
  · split
    · exact (forwardFrom_keepsPending _ _ _).trans ((pending_moves _).takeTime _ rfl)
    · exact forwardFrom_keepsPending _ _ (bump _ s)

/-- A MGMT row runs the command its code names, if any (R8, Table 1-5). -/
theorem arriveMgmt_keepsPending (code : Byte) (rx : MgmtRx) : KeepsPending (arriveMgmt code (commandFor code) rx) := by
  intro s
  unfold arriveMgmt
  dsimp only
  split
  · exact forwardFrom_keepsPending _ _ s
  · split
    · rfl
    · split
      · exact (pending_moves _).origin _ _ _ (commandFor_pending code _ s)
      · rfl

theorem arriveMgmtLine_keepsPending (rx : LineRx) : KeepsPending (arriveMgmtLine rx) := by
  intro s
  unfold arriveMgmtLine
  split
  · exact arriveMgmt_keepsPending _ _ s
  · split
    · exact forwardFrom_keepsPending _ _ s
    · split <;> rfl

/-- A line frame of any kind (Table 1-6). -/
theorem arriveLine_keepsPending (kind : Byte) (rx : LineRx) : KeepsPending (arriveLine kind rx) := by
  intro s
  unfold arriveLine
  split
  · have stored (n v : Nat) : KeepsPending (setBaseline n v) := fun _ => (pending_stations _).baseline n v _ rfl
    exact observe_keepsPending (fun st _ => (pending_moves _).takeCount _ st _ (stored _ _ _)) s
  · exact observe_keepsPending (fun st _ => (pending_moves _).dispatchEffect rx st rfl) s
  · exact observe_keepsPending (fun st _ => (pending_moves _).rideStateEffect rx st rfl) s
  · exact observe_keepsPending (fun st _ => (pending_moves _).releasedEffect rx st rfl) s
  · exact consume_keepsPending (fun _ _ => (pending_moves _).takePassReq rx rfl) s
  · exact consume_keepsPending (fun _ _ => (pending_moves _).acceptTake rx rfl) s
  · exact consume_keepsPending (fun _ _ => (pending_moves _).acceptDrop rx rfl) s
  · exact consume_keepsPending (fun _ _ => (pending_moves _).acceptCancel rx rfl) s
  · exact consume_keepsPending (fun st _ => (pending_moves _).redeemEffect rx st rfl) s
  · exact arriveBoard_keepsPending rx s
  · exact arriveTime_keepsPending rx s
  · exact arriveMgmtLine_keepsPending rx s
  · exact forwardFrom_keepsPending _ _ s

/-- Any frame (R1). -/
theorem arriveFrame_keepsPending (p : Port) (f : Frame) : KeepsPending (arriveFrame p f) := by
  intro s
  unfold arriveFrame
  split
  · exact forwardFrom_keepsPending _ _ s
  · split
    · exact forwardFrom_keepsPending _ _ (bump _ s)
    · split
      · exact arriveLine_keepsPending _ _ s
      · exact forwardFrom_keepsPending _ _ s

/-! ### Links and transmitters -/

theorem setPort_pending (p : Port) (u : PortUnit) (s : State) : (setPort p u s).pending = s.pending := by simp

theorem reportsAtLink_keepsPending (p : Port) : KeepsPending (reportsAtLink p) := by
  cases p <;> simp [KeepsPending, reportsAtLink]

theorem dropLink_keepsPending (p : Port) : KeepsPending (dropLink p) :=
  fun _ => (reportsAtLink_keepsPending p _).trans (setPort_pending _ _ _)

theorem raiseLink_keepsPending (p : Port) : KeepsPending (raiseLink p) :=
  fun _ => (reportsAtLink_keepsPending p _).trans (setPort_pending _ _ _)

theorem reportsAfterTake_keepsPending (p : Port) (q : QueueName) : KeepsPending (reportsAfterTake p q) := by
  cases p <;> cases q <;> simp [KeepsPending, reportsAfterTake]

theorem startSending_keepsPending (p : Port) : KeepsPending (startSending p) := by
  intro s
  unfold startSending
  dsimp only
  split
  · split
    · rfl
    · exact (reportsAfterTake_keepsPending _ _ _).trans (setPort_pending _ _ _)
  · rfl

/-! ### Every command -/

/-- An arriving frame answers a next state, received or not (R1, R21, R22). -/
theorem onArrival_answers {effect : State → State} (h : KeepsPending effect) (p : Port) (n : Nat) (s : State) :
    ∃ t, onArrival p n effect s = .next t ∧ t.pending = s.pending :=
  ⟨_, rfl, onArrival_keeps (P := fun t => t.pending = s.pending) (h s) rfl rfl⟩

/-- An internal step answers a next state, while RESET is held too (log 7). -/
theorem onInside_answers {effect : State → State} (h : KeepsPending effect) (s : State) :
    ∃ t, onInside effect s = .next t ∧ t.pending = s.pending :=
  ⟨_, rfl, onInside_keeps (P := fun t => t.pending = s.pending) (h s) rfl rfl⟩

theorem mgmtStep_answers (code : Byte) (rx : MgmtRx) (s : State) :
    ∃ t, mgmtStep code (commandFor code) rx s = .next t ∧ t.pending = s.pending :=
  onArrival_answers (arriveMgmt_keepsPending code rx) _ _ s

/-- A row of Table 1-6 arrives as the line frame of its kind. -/
theorem lineStep_answers (kind : Byte) (rx : LineRx) (s : State) :
    ∃ t, onArrival rx.port (linePayloadLength rx) (arriveLine kind rx) s = .next t ∧ t.pending = s.pending :=
  onArrival_answers (arriveLine_keepsPending kind rx) _ _ s

/-- A frame that the row OTHER_TRAFFIC carries is taken for what its bytes are (log 4). -/
theorem otherTraffic_answers (p : Port) (f : Frame) (s : State) :
    ∃ t, execOtherTraffic p f s = .next t ∧ t.pending = s.pending := by
  unfold execOtherTraffic
  refine onArrival_answers (fun t => ?_) p _ s
  split
  · exact arriveFrame_keepsPending p f t
  · exact forwardFrom_keepsPending p f t

/-- A frame that the row FOREIGN_FRAME carries is taken for what its bytes are (log 4). -/
theorem foreignFrame_answers (p : Port) (f : Frame) (s : State) :
    ∃ t, execForeignFrame p f s = .next t ∧ t.pending = s.pending := by
  unfold execForeignFrame
  refine onArrival_answers (fun t => ?_) p _ s
  split
  · exact forwardFrom_keepsPending p f (bump .foreign t)
  · exact arriveFrame_keepsPending p f t

/-- A frame that the row WRONG_PORT_MGMT carries is taken for what its bytes are (log 4). -/
theorem wrongPortMgmt_answers (rx : LineRx) (s : State) :
    ∃ t, execWrongPortMgmt rx s = .next t ∧ t.pending = s.pending := by
  unfold execWrongPortMgmt
  refine onArrival_answers (fun t => ?_) rx.port _ s
  split
  · exact bump_pending .wrongPortMgmt t
  · exact arriveMgmtLine_keepsPending rx t

theorem linkDown_answers (p : Port) (s : State) : ∃ t, execLinkDown p s = .next t ∧ t.pending = s.pending := by
  refine ⟨_, rfl, ?_⟩
  split
  · exact setPort_pending _ _ s
  · split
    · exact dropLink_keepsPending p s
    · rfl

theorem linkUp_answers (p : Port) (s : State) : ∃ t, execLinkUp p s = .next t ∧ t.pending = s.pending := by
  refine ⟨_, rfl, ?_⟩
  split
  · exact setPort_pending _ _ s
  · split
    · rfl
    · exact raiseLink_keepsPending p s

/-- Settles O1: a step is `exec` of the command in front, and idles on an empty queue (log 3). -/
theorem stepRunsTheCommandInFront : Obligations.StepRunsTheCommandInFront :=
  ⟨fun _ _ _ => rfl, fun s h => by rw [step, h]⟩

/-- Settles O2: a frame, an internal step, a link change and a reset each answer a next state, and none writes the
waiting commands. -/
theorem everyCommandAnswersANextState : Obligations.EveryCommandAnswersANextState := by
  intro c s
  cases c with
  | frameDiscard p why => exact ⟨s, rfl, rfl⟩
  | otherTraffic p f => exact otherTraffic_answers p f s
  | foreignFrame p f => exact foreignFrame_answers p f s
  | forward p f => exact onArrival_answers (arriveFrame_keepsPending p f) p _ s
  | count rx => exact lineStep_answers 0x01 rx s
  | dispatch rx => exact lineStep_answers 0x02 rx s
  | rideState rx => exact lineStep_answers 0x03 rx s
  | released rx => exact lineStep_answers 0x04 rx s
  | passReq rx => exact lineStep_answers 0x10 rx s
  | take rx => exact lineStep_answers 0x11 rx s
  | drop rx => exact lineStep_answers 0x12 rx s
  | cancel rx => exact lineStep_answers 0x13 rx s
  | redeem rx => exact lineStep_answers 0x14 rx s
  | board rx => exact lineStep_answers 0x30 rx s
  | time rx => exact lineStep_answers 0x31 rx s
  | wrongPortMgmt rx => exact wrongPortMgmt_answers rx s
  | unknownCommand code rx => exact mgmtStep_answers code rx s
  | identify rx => exact mgmtStep_answers 0x01 rx s
  | loadPark rx => exact mgmtStep_answers 0x02 rx s
  | loadClass rx => exact mgmtStep_answers 0x03 rx s
  | loadStation rx => exact mgmtStep_answers 0x04 rx s
  | removeStation rx => exact mgmtStep_answers 0x05 rx s
  | loadRide rx => exact mgmtStep_answers 0x06 rx s
  | unloadRide rx => exact mgmtStep_answers 0x07 rx s
  | loadBoard rx => exact mgmtStep_answers 0x08 rx s
  | loadSymbols rx => exact mgmtStep_answers 0x09 rx s
  | makeReady rx => exact mgmtStep_answers 0x0A rx s
  | dayBegin rx => exact mgmtStep_answers 0x0B rx s
  | dayEnd rx => exact mgmtStep_answers 0x0C rx s
  | purge rx => exact mgmtStep_answers 0x0D rx s
  | openRide rx => exact mgmtStep_answers 0x0E rx s
  | closeRide rx => exact mgmtStep_answers 0x0F rx s
  | setQueue rx => exact mgmtStep_answers 0x10 rx s
  | setMask rx => exact mgmtStep_answers 0x11 rx s
  | issueCourtesy rx => exact mgmtStep_answers 0x12 rx s
  | cancelPass rx => exact mgmtStep_answers 0x13 rx s
  | queryRide rx => exact mgmtStep_answers 0x14 rx s
  | queryWindows rx => exact mgmtStep_answers 0x15 rx s
  | queryToken rx => exact mgmtStep_answers 0x16 rx s
  | queryPasses rx => exact mgmtStep_answers 0x17 rx s
  | queryStations rx => exact mgmtStep_answers 0x18 rx s
  | readCounters rx => exact mgmtStep_answers 0x19 rx s
  | secondTick => exact onInside_answers (fun _ => (pending_moves _).tickSecond rfl) s
  | clockFree => exact onInside_answers (fun _ => (pending_moves _).ageClock _ _ _ rfl) s
  | clockAdrift => exact onInside_answers (fun _ => (pending_moves _).ageClock _ _ _ rfl) s
  | silenceExpiry n => exact onInside_answers (fun _ => (pending_stations _).silenceDue n rfl) s
  | holdExpiry n => exact onInside_answers (fun _ => (pending_moves _).holdDue n rfl) s
  | releaseTimeout n => exact onInside_answers (fun _ => (pending_moves _).releaseDue n rfl) s
  | boardRefresh n => exact onInside_answers (fun _ => (pending_moves _).refreshDue n rfl) s
  | linkDown p => exact linkDown_answers p s
  | linkUp p => exact linkUp_answers p s
  | transmitStart p => exact onInside_answers (startSending_keepsPending p) s
  | transmitDone p => exact onInside_answers (fun _ => setPort_pending p _ _) s
  | reset straps => exact ⟨resetState straps s, rfl, rfl⟩
  | resetAsserted => exact ⟨{ s with resetHeld := true }, rfl, rfl⟩

end Sys2Proof.Machine
end
